-- ==== Sys2Proof/Word.lean ====
section
/-! DEFINITION. The data types of the engine's ports (spec/00_scope.md R10, R11; spec/20_memory.md R60–R63). -/

namespace Sys2Proof

/-- A byte is 8 bits (R11). -/
abbrev Byte := BitVec 8

/-- A command word, or a word of the register read port: 32 bits (R61, R63, R80). -/
abbrev Word := BitVec 32

/-- A byte string of `n` bytes, byte 0 first in time and first in the envelope (R11). -/
abbrev Bytes (n : Nat) := Vector Byte n

/-- `0^n`: the string of `n` zero bytes (R11). -/
def Bytes.zero (n : Nat) : Bytes n := Vector.replicate n 0

/-- A 32-byte key (R5, `KEY_BYTES`). -/
abbrev Key := Bytes 32

/-- A 16-byte string: an IV, a counter block or a keystream block (R5, `IV_BYTES`, `BLOCK_BYTES`). -/
abbrev Block := Bytes 16

end Sys2Proof
end

