-- ==== Sys2Proof/Machine/Operands.lean ====
section
/-! DEFINITION. The operand forms of a command word (spec/30_encoding.md R80–R84): which bits are the opcode, which
carry an operand and which are reserved. Operands are immediates; the engine has no registers to name (R20). -/

namespace Sys2Proof.Machine

/-- `OP = w[31:24]` (R80). -/
def opcodeOf (w : Word) : Byte := w.extractLsb' 24 8

/-- Data byte `j` of a word of format Dn, `j = 0` first in stream order: `w[8*(n-1-j)+7 : 8*(n-1-j)]` (R84). -/
def dataByte (w : Word) (n j : Nat) : Byte := w.extractLsb' (8 * (n - 1 - j)) 8

/-- The byte immediate of format B: `b = w[7:0]`, used as is (R82). -/
def byteOperand (w : Word) : Byte := w.extractLsb' 0 8

/-- Format Z: `w[23:0]` is reserved and 0 (R81). -/
def formatZOk (w : Word) : Bool := w.extractLsb' 0 24 == 0

/-- Format B: `w[23:8]` is reserved and 0 (R82). -/
def formatBOk (w : Word) : Bool := w.extractLsb' 8 16 == 0

/-- Format D1: bits [23:8] are reserved and 0 (R83). -/
def formatD1Ok (w : Word) : Bool := w.extractLsb' 8 16 == 0

/-- Format D2: bits [23:16] are reserved and 0 (R83). Format D3 has no reserved bits. -/
def formatD2Ok (w : Word) : Bool := w.extractLsb' 16 8 == 0

end Sys2Proof.Machine
end

