-- ==== Sys2Proof/Syntax.lean ====
section
/-! DEFINITION. The twelve commands of the engine (spec/30_encoding.md R85, spec/opcode_table.json). -/

namespace Sys2Proof

/-- A command of the engine, one constructor per row of the opcode map (R85). Its operands are immediates (R20);
an operand is a `Byte`, so a term of this type is in range by construction (R89: 0..255). -/
inductive Instr where
  /-- NOP (R230), word 0x00000000. -/
  | nop
  /-- ERRCLR (R231), word 0x01000000. -/
  | errclr
  /-- SRESET (R232), word 0x02000000. -/
  | sreset
  /-- KCLR (R101), word 0x10000000. -/
  | kclr
  /-- KBYTE b (R102), words 0x110000bb. -/
  | kbyte (b : Byte)
  /-- ENCSTART (R201), word 0x20000000. -/
  | encstart
  /-- DECSTART (R202), word 0x21000000. -/
  | decstart
  /-- END (R203), word 0x22000000. -/
  | endSession
  /-- ABORT (R204), word 0x23000000. -/
  | abort
  /-- DATA1 d0 (R177), words 0x310000dd. -/
  | data1 (d0 : Byte)
  /-- DATA2 d0, d1 (R178), words 0x3200dddd, `d0` first in stream order. -/
  | data2 (d0 d1 : Byte)
  /-- DATA3 d0, d1, d2 (R179), words 0x33dddddd, `d0` first in stream order. -/
  | data3 (d0 d1 d2 : Byte)
  deriving DecidableEq, Repr

end Sys2Proof
end

