-- ==== Sys2Proof/Decode.lean ====
section
/-! DEFINITION. Decoding a command word and encoding a command (spec/30_encoding.md). Every 32-bit word has exactly one
of thirteen outcomes: one of the twelve commands, or illegal (R87); an illegal word is rejected by name. -/

namespace Sys2Proof

open Sys2Proof.Machine

/-- Why a word is illegal (R86). Executing such a word is no refusal of the model: outside the error state it raises
IllegalCommand. -/
inductive DecodeError where
  /-- R86 (a): the opcode is not one of the twelve of R85. -/
  | unassignedOpcode (op : Byte)
  /-- R86 (b): an assigned opcode with a nonzero reserved bit. -/
  | reservedBits (op : Byte)
  deriving DecidableEq, Repr

/-- The command `i` if the word's reserved bits are 0 (`ok`), else the rejection of R86 (b). -/
def requireReserved (ok : Bool) (w : Word) (i : Instr) : Except DecodeError Instr :=
  if ok then .ok i else .error (.reservedBits (opcodeOf w))

/-- The command a word stands for (R80–R86): the opcode byte selects the command, the reserved bits must be 0. -/
def decode (w : Word) : Except DecodeError Instr :=
  match (opcodeOf w).toNat with
  | 0x00 => requireReserved (formatZOk w) w .nop
  | 0x01 => requireReserved (formatZOk w) w .errclr
  | 0x02 => requireReserved (formatZOk w) w .sreset
  | 0x10 => requireReserved (formatZOk w) w .kclr
  | 0x11 => requireReserved (formatBOk w) w (.kbyte (byteOperand w))
  | 0x20 => requireReserved (formatZOk w) w .encstart
  | 0x21 => requireReserved (formatZOk w) w .decstart
  | 0x22 => requireReserved (formatZOk w) w .endSession
  | 0x23 => requireReserved (formatZOk w) w .abort
  | 0x31 => requireReserved (formatD1Ok w) w (.data1 (dataByte w 1 0))
  | 0x32 => requireReserved (formatD2Ok w) w (.data2 (dataByte w 2 0) (dataByte w 2 1))
  | 0x33 => .ok (.data3 (dataByte w 3 0) (dataByte w 3 1) (dataByte w 3 2))
  | _ => .error (.unassignedOpcode (opcodeOf w))

/-- The word of a command (R85), its operands placed as R81–R84 say, every reserved bit 0. -/
def encode : Instr → Word
  | .nop => 0x00000000
  | .errclr => 0x01000000
  | .sreset => 0x02000000
  | .kclr => 0x10000000
  | .kbyte b => 0x11000000 ||| b.setWidth 32
  | .encstart => 0x20000000
  | .decstart => 0x21000000
  | .endSession => 0x22000000
  | .abort => 0x23000000
  | .data1 d0 => 0x31000000 ||| d0.setWidth 32
  | .data2 d0 d1 => 0x32000000 ||| d0.setWidth 32 <<< 8 ||| d1.setWidth 32
  | .data3 d0 d1 d2 => 0x33000000 ||| d0.setWidth 32 <<< 16 ||| d1.setWidth 32 <<< 8 ||| d2.setWidth 32

/-- The spec's name of a command (R85). -/
def Instr.mnemonic : Instr → String
  | .nop => "NOP"
  | .errclr => "ERRCLR"
  | .sreset => "SRESET"
  | .kclr => "KCLR"
  | .kbyte _ => "KBYTE"
  | .encstart => "ENCSTART"
  | .decstart => "DECSTART"
  | .endSession => "END"
  | .abort => "ABORT"
  | .data1 _ => "DATA1"
  | .data2 _ _ => "DATA2"
  | .data3 _ _ _ => "DATA3"

/-- A row of the opcode map (R85): a word `w` is the row's command exactly when `w &&& mask = pattern`. -/
structure OpcodeRow where
  mnemonic : String
  pattern : Word
  mask : Word
  deriving DecidableEq, Repr

/-- The opcode map of R85, its `match` and `mask` columns. `decode` is written from the formats of R81–R84; that the
two agree is a statement about the model, not a definition. -/
def opcodeMap : List OpcodeRow :=
  [⟨"NOP", 0x00000000, 0xFFFFFFFF⟩, ⟨"ERRCLR", 0x01000000, 0xFFFFFFFF⟩, ⟨"SRESET", 0x02000000, 0xFFFFFFFF⟩,
   ⟨"KCLR", 0x10000000, 0xFFFFFFFF⟩, ⟨"KBYTE", 0x11000000, 0xFFFFFF00⟩, ⟨"ENCSTART", 0x20000000, 0xFFFFFFFF⟩,
   ⟨"DECSTART", 0x21000000, 0xFFFFFFFF⟩, ⟨"END", 0x22000000, 0xFFFFFFFF⟩, ⟨"ABORT", 0x23000000, 0xFFFFFFFF⟩,
   ⟨"DATA1", 0x31000000, 0xFFFFFF00⟩, ⟨"DATA2", 0x32000000, 0xFFFF0000⟩, ⟨"DATA3", 0x33000000, 0xFF000000⟩]

/-- The word satisfies the row's mask and match (R85). -/
def OpcodeRow.matchesWord (r : OpcodeRow) (w : Word) : Bool := w &&& r.mask == r.pattern

/-- The command word that the opcode table's bits `w` stand for: a command is exactly one 32-bit word (R80), so the
bits above `nbits`, and any above bit 31, are no part of it (DESIGN CHOICE, notes/assumptions/11.md). -/
def tableWord (nbits w : Nat) : Word := BitVec.ofNat 32 (w % 2 ^ nbits)

/-- What the decoder reads from a row of the opcode table whose bits are `w`. -/
def decodeTableWord (nbits w : Nat) : Option Instr :=
  match decode (tableWord nbits w) with
  | .ok i => some i
  | .error _ => none

end Sys2Proof
end

