-- ==== Sys2Proof/Machine/Aes.lean ====
section
/-! DEFINITION. The AES-256 block cipher, forward direction only (spec/42_aes256_block.md R140–R151). -/

namespace Sys2Proof.Machine

/-- `xtime(a)`: multiplication by `x` modulo `x^8 + x^4 + x^3 + x + 1` (R142). -/
def xtime (a : Byte) : Byte := (a <<< 1) ^^^ (if a.msb then 0x1B else 0x00)

/-- `a • b` in GF(2^8), the multiplier taken bit by bit from its most significant of `n` bits (R142). -/
def gmulBits (a b : Byte) : Nat → Byte
  | 0 => 0
  | n + 1 => (if b.getLsbD 0 then a else 0) ^^^ gmulBits (xtime a) (b >>> 1) n

/-- `a • b`: polynomial multiplication modulo `m(x)` (R142). -/
def gmul (a b : Byte) : Byte := gmulBits a b 8

/-- `a • 0x03 = xtime(a) ^ a` (R142). -/
def times3 (a : Byte) : Byte := xtime a ^^^ a

/- The S-box table of R143, one row for each high nibble. -/
def sboxRow0 : List Byte :=
  [0x63, 0x7c, 0x77, 0x7b, 0xf2, 0x6b, 0x6f, 0xc5, 0x30, 0x01, 0x67, 0x2b, 0xfe, 0xd7, 0xab, 0x76]

def sboxRow1 : List Byte :=
  [0xca, 0x82, 0xc9, 0x7d, 0xfa, 0x59, 0x47, 0xf0, 0xad, 0xd4, 0xa2, 0xaf, 0x9c, 0xa4, 0x72, 0xc0]

def sboxRow2 : List Byte :=
  [0xb7, 0xfd, 0x93, 0x26, 0x36, 0x3f, 0xf7, 0xcc, 0x34, 0xa5, 0xe5, 0xf1, 0x71, 0xd8, 0x31, 0x15]

def sboxRow3 : List Byte :=
  [0x04, 0xc7, 0x23, 0xc3, 0x18, 0x96, 0x05, 0x9a, 0x07, 0x12, 0x80, 0xe2, 0xeb, 0x27, 0xb2, 0x75]

def sboxRow4 : List Byte :=
  [0x09, 0x83, 0x2c, 0x1a, 0x1b, 0x6e, 0x5a, 0xa0, 0x52, 0x3b, 0xd6, 0xb3, 0x29, 0xe3, 0x2f, 0x84]

def sboxRow5 : List Byte :=
  [0x53, 0xd1, 0x00, 0xed, 0x20, 0xfc, 0xb1, 0x5b, 0x6a, 0xcb, 0xbe, 0x39, 0x4a, 0x4c, 0x58, 0xcf]

def sboxRow6 : List Byte :=
  [0xd0, 0xef, 0xaa, 0xfb, 0x43, 0x4d, 0x33, 0x85, 0x45, 0xf9, 0x02, 0x7f, 0x50, 0x3c, 0x9f, 0xa8]

def sboxRow7 : List Byte :=
  [0x51, 0xa3, 0x40, 0x8f, 0x92, 0x9d, 0x38, 0xf5, 0xbc, 0xb6, 0xda, 0x21, 0x10, 0xff, 0xf3, 0xd2]

def sboxRow8 : List Byte :=
  [0xcd, 0x0c, 0x13, 0xec, 0x5f, 0x97, 0x44, 0x17, 0xc4, 0xa7, 0x7e, 0x3d, 0x64, 0x5d, 0x19, 0x73]

def sboxRow9 : List Byte :=
  [0x60, 0x81, 0x4f, 0xdc, 0x22, 0x2a, 0x90, 0x88, 0x46, 0xee, 0xb8, 0x14, 0xde, 0x5e, 0x0b, 0xdb]

def sboxRowA : List Byte :=
  [0xe0, 0x32, 0x3a, 0x0a, 0x49, 0x06, 0x24, 0x5c, 0xc2, 0xd3, 0xac, 0x62, 0x91, 0x95, 0xe4, 0x79]

def sboxRowB : List Byte :=
  [0xe7, 0xc8, 0x37, 0x6d, 0x8d, 0xd5, 0x4e, 0xa9, 0x6c, 0x56, 0xf4, 0xea, 0x65, 0x7a, 0xae, 0x08]

def sboxRowC : List Byte :=
  [0xba, 0x78, 0x25, 0x2e, 0x1c, 0xa6, 0xb4, 0xc6, 0xe8, 0xdd, 0x74, 0x1f, 0x4b, 0xbd, 0x8b, 0x8a]

def sboxRowD : List Byte :=
  [0x70, 0x3e, 0xb5, 0x66, 0x48, 0x03, 0xf6, 0x0e, 0x61, 0x35, 0x57, 0xb9, 0x86, 0xc1, 0x1d, 0x9e]

def sboxRowE : List Byte :=
  [0xe1, 0xf8, 0x98, 0x11, 0x69, 0xd9, 0x8e, 0x94, 0x9b, 0x1e, 0x87, 0xe9, 0xce, 0x55, 0x28, 0xdf]

def sboxRowF : List Byte :=
  [0x8c, 0xa1, 0x89, 0x0d, 0xbf, 0xe6, 0x42, 0x68, 0x41, 0x99, 0x2d, 0x0f, 0xb0, 0x54, 0xbb, 0x16]

/-- The S-box table of R143, entry `SBOX(0xxy)` at `16x + y`. -/
def sboxTable : List Byte :=
  sboxRow0 ++ sboxRow1 ++ sboxRow2 ++ sboxRow3 ++ sboxRow4 ++ sboxRow5 ++ sboxRow6 ++ sboxRow7 ++
  sboxRow8 ++ sboxRow9 ++ sboxRowA ++ sboxRowB ++ sboxRowC ++ sboxRowD ++ sboxRowE ++ sboxRowF

/-- `SBOX(a)` (R143). -/
def sbox (a : Byte) : Byte := sboxTable.getD a.toNat 0

/-- `n` more factors of `a^2 • a^4 • a^8 • ..`, each the square of the one before it (R142). -/
def squareProduct (square acc : Byte) : Nat → Byte
  | 0 => acc
  | n + 1 => squareProduct (gmul square square) (gmul acc square) n

/-- `a^-1` in GF(2^8), with `0^-1 = 0`: `a^254 = a^2 • a^4 • .. • a^128` (R143). -/
def gfInverse (a : Byte) : Byte := squareProduct (gmul a a) 1 7

/-- `A(b) = b ^ rotl8(b,1) ^ rotl8(b,2) ^ rotl8(b,3) ^ rotl8(b,4) ^ 0x63` (R143). -/
def affine (b : Byte) : Byte :=
  b ^^^ b.rotateLeft 1 ^^^ b.rotateLeft 2 ^^^ b.rotateLeft 3 ^^^ b.rotateLeft 4 ^^^ 0x63

/-- The S-box by its formula, `A(a^-1)` (R143). The cipher uses the table; that the two agree is a statement about the
model. -/
def sboxFormula (a : Byte) : Byte := affine (gfInverse a)

/-- The AES state: 16 bytes, `s[r, c]` at index `r + 4c`, so that a block is its own state array (R141). -/
abbrev AesState := Block

/-- `s[r, c]` (R141). -/
def AesState.cell (s : AesState) (r c : Fin 4) : Byte := s[r.val + 4 * c.val]

/-- The state whose cell `(r, c)` is `f r c` (R141). -/
def aesState (f : Fin 4 → Fin 4 → Byte) : AesState :=
  Vector.ofFn fun i => f ⟨i.val % 4, by omega⟩ ⟨i.val / 4, by omega⟩

/-- `SubBytes` (R144). -/
def subBytes (s : AesState) : AesState := aesState fun r c => sbox (s.cell r c)

/-- `ShiftRows`: `s'[r, c] = s[r, (c + r) mod 4]` (R145). -/
def shiftRows (s : AesState) : AesState := aesState fun r c => s.cell r (c + r)

/-- Row `r` of the column `(a0, a1, a2, a3)` after MixColumns (R146). -/
def mixRow (r : Fin 4) (a0 a1 a2 a3 : Byte) : Byte :=
  match r with
  | 0 => xtime a0 ^^^ times3 a1 ^^^ a2 ^^^ a3
  | 1 => a0 ^^^ xtime a1 ^^^ times3 a2 ^^^ a3
  | 2 => a0 ^^^ a1 ^^^ xtime a2 ^^^ times3 a3
  | 3 => times3 a0 ^^^ a1 ^^^ a2 ^^^ xtime a3

/-- `MixColumns` (R146). -/
def mixColumns (s : AesState) : AesState :=
  aesState fun r c => mixRow r (s.cell 0 c) (s.cell 1 c) (s.cell 2 c) (s.cell 3 c)

/-- A round-key word `[b0, b1, b2, b3]` (R148). -/
abbrev KeyWord := Bytes 4

/-- Exclusive OR of two words, byte by byte (R149). -/
def xorWord (a b : KeyWord) : KeyWord := Vector.ofFn fun r => a[r] ^^^ b[r]

/-- `RotWord` (R148). -/
def rotWord (t : KeyWord) : KeyWord := #v[t[1], t[2], t[3], t[0]]

/-- `SubWord` (R148). -/
def subWord (t : KeyWord) : KeyWord := Vector.ofFn fun r => sbox t[r]

/-- `RC[j]`: `RC[1] = 0x01`, `RC[j] = xtime(RC[j-1])` (R148). -/
def roundConstant : Nat → Byte
  | 0 => 0x00
  | 1 => 0x01
  | j + 2 => xtime (roundConstant (j + 1))

/-- `Rcon[j] = [RC[j], 0, 0, 0]` (R148). -/
def rcon (j : Nat) : KeyWord := #v[roundConstant j, 0, 0, 0]

/-- The word that a key expansion step combines with `w[i-8]`, made from `w[i-1]` (R149). -/
def expansionTerm (i : Nat) (previous : KeyWord) : KeyWord :=
  if i % 8 = 0 then xorWord (subWord (rotWord previous)) (rcon (i / 8))
  else if i % 8 = 4 then subWord previous
  else previous

/-- `w[0..7]`: the key itself, four bytes a word (R149). -/
def keyWord (k : Key) (i : Fin 8) : KeyWord := Vector.ofFn fun r => k[4 * i.val + r.val]

/-- The word `w[i]` from the words before it, the newest first: `w[i-8] ^ t` (R149). -/
def nextKeyWord (i : Nat) (newestFirst : List KeyWord) : KeyWord :=
  xorWord (newestFirst.getD 7 (Bytes.zero 4)) (expansionTerm i (newestFirst.getD 0 (Bytes.zero 4)))

/-- `n` more steps of the key expansion, from word `i` on; the words are kept newest first (R149). -/
def expandFrom (i : Nat) : Nat → List KeyWord → List KeyWord
  | 0, ws => ws
  | n + 1, ws => expandFrom (i + 1) n (nextKeyWord i ws :: ws)

/-- `KeyExpansion(K)`: the 60 words `w[0..59]`, `w[0]` first (R149). -/
def keyExpansion (k : Key) : List KeyWord := (expandFrom 8 52 (List.ofFn (keyWord k)).reverse).reverse

/-- `AddRoundKey(s, rd)`: `s[r, c] ^ w[4*rd + c][r]` (R147). -/
def addRoundKey (w : List KeyWord) (rd : Nat) (s : AesState) : AesState :=
  aesState fun r c => s.cell r c ^^^ (w.getD (4 * rd + c.val) (Bytes.zero 4))[r]

/-- `n` full rounds, the first with number `rd` (R150). -/
def fullRounds (w : List KeyWord) (rd : Nat) : Nat → AesState → AesState
  | 0, s => s
  | n + 1, s => fullRounds w (rd + 1) n (addRoundKey w rd (mixColumns (shiftRows (subBytes s))))

/-- The cipher under an expanded key: rounds 1 to 13, and round 14 without MixColumns (R150). -/
def cipher (w : List KeyWord) (b : Block) : Block :=
  addRoundKey w 14 (shiftRows (subBytes (fullRounds w 1 13 (addRoundKey w 0 b))))

/-- `AES256_Encrypt(K, B)` (R140, R150). -/
def aes256Encrypt (k : Key) (b : Block) : Block := cipher (keyExpansion k) b

end Sys2Proof.Machine
end

