-- ==== Sys2Proof/Machine/ByteOrder.lean ====
section
/-! DEFINITION. Byte strings and their big-endian readings (spec/00_scope.md R11, spec/20_memory.md R64–R68). The byte
order is fixed: no mode switches it (R68). -/

namespace Sys2Proof.Machine

/-- The slice `S[a..a+m)` of a byte string (R11). -/
def slice {n : Nat} (s : Bytes n) (a m : Nat) (h : a + m ≤ n := by omega) : Bytes m :=
  Vector.ofFn fun i => s[a + i.val]

/-- `BE32(S)`: `S[0]` in bits [31:24] (R11, R67). -/
def be32 (s : Bytes 4) : BitVec 32 :=
  s[0].setWidth 32 <<< 24 ||| s[1].setWidth 32 <<< 16 ||| s[2].setWidth 32 <<< 8 ||| s[3].setWidth 32

/-- `BE64(S)`: `S[0]` most significant (R11, R64). -/
def be64 (s : Bytes 8) : BitVec 64 :=
  s[0].setWidth 64 <<< 56 ||| s[1].setWidth 64 <<< 48 ||| s[2].setWidth 64 <<< 40 ||| s[3].setWidth 64 <<< 32 |||
  s[4].setWidth 64 <<< 24 ||| s[5].setWidth 64 <<< 16 ||| s[6].setWidth 64 <<< 8 ||| s[7].setWidth 64

/-- `BE64bytes(v)`: the 8-byte string whose `BE64` is `v` (R11, R65). -/
def be64Bytes (v : BitVec 64) : Bytes 8 := Vector.ofFn fun i => v.extractLsb' (8 * (7 - i.val)) 8

/-- `A || B` for two 8-byte strings, `A` first (R11). -/
def joinHalves (a b : Bytes 8) : Block :=
  Vector.ofFn fun i => if h : i.val < 8 then a[i.val] else b[i.val - 8]

end Sys2Proof.Machine
end

