-- ==== Sys2Proof/Config.lean ====
section
/-! DEFINITION. What is fixed for one engine: the parameters of spec/00_scope.md R5 and R6, and the one free input of
the model, the entropy source (R7). -/

namespace Sys2Proof

namespace Config

/-- The key length a session demands (R5, R100). -/
abbrev keyBytes : Nat := 32

/-- Where the key byte counter saturates (R6, R23). -/
abbrev keylenMax : Nat := 63

/-- The number of register-port word addresses (R6, R63). -/
abbrev registerCount : Nat := 16

end Config

/-- One answer of the entropy port: 16 bytes or FAIL (R121). -/
inductive EntropyAnswer where
  /-- 16 bytes, taken as the IV in the order delivered; the engine places no condition on them (R121). -/
  | bytes (iv : Block)
  /-- The source failed; the engine raises EntropyFailure (R121, R250). -/
  | fail
  deriving DecidableEq, Repr, Inhabited

/-- What the entropy source answers to its `n`-th request since power-on, when the environment has supplied no answer
in `State.entropy`: a FREE VALUE, any 16 bytes or FAIL (R7, R121, R284; spec/93_implementation_defined.md I1).
It has no body, so no proof can see what it is. -/
opaque Config.entropyAnswer : Nat → EntropyAnswer

end Sys2Proof
end

