-- ==== Sys2Proof/Machine/State.lean ====
section
/-! DEFINITION. The state of the engine (spec/10_state.md section 2), its reset (spec/70_reset_and_hazards.md R280) and
the reasons a step could stop. -/

namespace Sys2Proof.Machine

/-- The session phase (R30). The two-bit code 3 is never produced and so has no constructor (DEDUCED,
notes/assumptions/9.md). -/
inductive Phase where
  /-- 0: no session, no cipher handle. -/
  | idle
  /-- 1: a decrypt session that has received fewer than 16 envelope bytes. -/
  | ivParse
  /-- 2: the cipher handle is live and data bytes are transformed. -/
  | stream
  deriving DecidableEq, Repr

/-- Which command opened the session (R31). -/
inductive Dir where
  /-- 0: ENCSTART, or no session. -/
  | encrypt
  /-- 1: DECSTART. -/
  | decrypt
  deriving DecidableEq, Repr

/-- The seven errors of R250. Codes 8..15 are never produced and have no constructor
(spec/93_implementation_defined.md I4; DEDUCED, notes/assumptions/9.md). -/
inductive EngineError where
  /-- 1: a session command found KEYLEN ≠ 32. -/
  | invalidKeyLength
  /-- 2: END in a decrypt session that had fewer than 16 envelope bytes. -/
  | truncatedEnvelope
  /-- 3: a command word that decodes to no command. -/
  | illegalCommand
  /-- 4: END or DATA1/2/3 in IDLE. -/
  | noSession
  /-- 5: ENCSTART or DECSTART while a session is open. -/
  | sessionActive
  /-- 6: a data byte after 2^64 keystream blocks of one session. -/
  | keystreamExhausted
  /-- 7: the entropy port answered FAIL. -/
  | entropyFailure
  deriving DecidableEq, Repr

/-- One event the host causes at the engine's ports (R9, R60, R72, R292). -/
inductive PortEvent where
  /-- A command word on the command port (R61). -/
  | command (w : Word)
  /-- A read of a 4-bit word address on the register read port (R63, R233). -/
  | readRegister (a : BitVec 4)
  /-- The reset input, or power-on (R280, R281). -/
  | reset
  deriving DecidableEq, Repr

/-- Everything the spec gives the engine, and the four fields of the model's own that hold its environment. There is no
memory, no general register and no program counter to hold (R20, R21, R60). -/
structure State where
  /-- KEYBUF, the 32-byte key buffer (R22). -/
  keybuf : Key
  /-- KEYLEN, 6 bits: key bytes supplied since the last KCLR or reset, saturating at 63 (R23). -/
  keylen : BitVec 6
  /-- SKEY, the session key (R24). -/
  skey : Key
  /-- IV, the 16-byte IV register (R25). -/
  iv : Block
  /-- IVLEN, 5 bits: the IV bytes held, 0..16 (R26). -/
  ivlen : BitVec 5
  /-- CTR, the 64-bit running counter (R27). -/
  ctr : BitVec 64
  /-- OFFSET, 4 bits: the byte offset within the current keystream block (R28). -/
  offset : BitVec 4
  /-- EXH, the keystream-exhausted flag (R29). -/
  exh : Bool
  /-- PHASE (R30). -/
  phase : Phase
  /-- DIR (R31); informational, no data-path operation reads it. -/
  dir : Dir
  /-- ERRCODE: the error that put the engine into the error state, `none` for code 0 (R32, R250). -/
  errcode : Option EngineError
  /-- DROPPED: a command word was discarded since the last ERRCLR or reset (R33). -/
  dropped : Bool
  /-- OUT: every byte the engine has emitted, in emission order (R34). -/
  out : List Byte
  /-- MODEL'S OWN: the port events the host has issued and the engine has not yet taken, in their one total order
  (R8, R61, R72). -/
  pending : List PortEvent
  /-- MODEL'S OWN: the values the register read port has returned, in order (R63, R292). -/
  readback : List Word
  /-- MODEL'S OWN: answers of the entropy source that the environment fixes beforehand, for its next requests in order
  (R7, R121, R292). When it is empty the answer is the free value `Config.entropyAnswer`. -/
  entropy : List EntropyAnswer
  /-- MODEL'S OWN: how many requests the engine has made on the entropy port (R71). -/
  draws : Nat
  deriving DecidableEq, Repr

/-- Reasons the machine could stop with a fault: none. Every accepted command completes, the engine never hangs
(R291), and every error of the spec is a latched code with a next state (R251), so this closed inductive has no
constructor (DEDUCED, notes/assumptions/14.md). -/
inductive Fault where
  deriving DecidableEq, Repr

/-- Reasons a step could give no meaning. -/
inductive Refusal where
  /-- Raised by an arm of `exec` whose instruction has no meaning yet; no arm does so in this model. Safe: the machine
  stops where the engine goes on. -/
  | notModelled (mnemonic : String)
  deriving DecidableEq, Repr

/-- The state right after power-on reset: every field of R280 at its reset value. OUT, which reset does not touch
(R282), and the model's own fields are empty: nothing has been emitted, issued, read or drawn
(DEDUCED, notes/assumptions/1.md; DESIGN CHOICE, notes/assumptions/2.md). -/
def State.reset : State where
  keybuf := Bytes.zero 32
  keylen := 0
  skey := Bytes.zero 32
  iv := Bytes.zero 16
  ivlen := 0
  ctr := 0
  offset := 0
  exh := false
  phase := .idle
  dir := .encrypt
  errcode := none
  dropped := false
  out := []
  pending := []
  readback := []
  entropy := []
  draws := 0

end Sys2Proof.Machine
end

