-- ==== Sys2Proof/Machine/Ops.lean ====
section
/-! DEFINITION. The operations that commands share: emitting output, asking for entropy, ending a session, raising an
error, the error-state filter, acknowledging an error, reset. -/

namespace Sys2Proof.Machine

/-- `emit(b)`: append a byte to the output port (R12, R34, R62). -/
def emit (b : Byte) (s : State) : State := { s with out := s.out ++ [b] }

/-- Emit a byte string, its byte 0 first (R62, R201). -/
def emitAll (bs : List Byte) (s : State) : State := { s with out := s.out ++ bs }

/-- The answer the entropy source gives to the next request: the environment's next one, else the free value
(R7, R121; DESIGN CHOICE, notes/assumptions/5.md). -/
def nextAnswer (s : State) : EntropyAnswer := s.entropy.headD (Config.entropyAnswer s.draws)

/-- What one request on the entropy port uses up: the answer, and one request (R121). -/
def takeAnswer (s : State) : State := { s with entropy := s.entropy.tail, draws := s.draws + 1 }

/-- `draw16()`: one request on the entropy port (R12, R121). -/
def draw16 (s : State) : EntropyAnswer × State := (nextAnswer s, takeAnswer s)

/-- `ClearSession()` (R205). KEYBUF, KEYLEN, ERRCODE, DROPPED and OUT stay as they are. -/
def clearSession (s : State) : State :=
  { s with
    phase := .idle, dir := .encrypt, skey := Bytes.zero 32, iv := Bytes.zero 16, ivlen := 0, ctr := 0, offset := 0,
    exh := false }

/-- `raise E`, the one way every error is taken (R251): latch the code and end the session. Nothing else changes: the
key buffer, DROPPED and OUT are kept. The command that raises ends with this state. -/
def raise (e : EngineError) (s : State) : State := clearSession { s with errcode := some e }

/-- The engine is in the error state while ERRCODE ≠ 0 (R252). -/
def inError (s : State) : Bool := s.errcode.isSome

/-- What a word discarded by the error-state filter does (R252). -/
def dropWord (s : State) : State := { s with dropped := true }

/-- The error-state filter (R252, R253 check 1): outside the error state a command has its effect `f`; in it, the word
is dropped. NOP, ERRCLR and SRESET do not go through it. -/
def unlessError (f : State → State) (s : State) : State := if inError s then dropWord s else f s

/-- The way out of the error state that keeps the key (R231): ERRCODE and DROPPED become 0. There is no saved state and
no return (R256): the session the error ended stays ended. -/
def acknowledge (s : State) : State := { s with errcode := none, dropped := false }

/-- `ResetState()` (R280): every element to its reset value. OUT is not touched (R282), nor the entropy source (R282),
nor what the host has issued and read (DESIGN CHOICE, notes/assumptions/8.md). -/
def resetState (s : State) : State :=
  { s with
    keybuf := Bytes.zero 32, keylen := 0, skey := Bytes.zero 32, iv := Bytes.zero 16, ivlen := 0, ctr := 0,
    offset := 0, exh := false, phase := .idle, dir := .encrypt, errcode := none, dropped := false }

/-- What executing an illegal word does (R86, R252, R253): IllegalCommand outside the error state, a drop in it. -/
def illegalWord (s : State) : State := unlessError (raise .illegalCommand) s

/-- The `err` output: a level equal to `ERRCODE ≠ 0` (R255). -/
def errOutput (s : State) : Bool := inError s

end Sys2Proof.Machine
end

