-- ==== Sys2Proof/Machine/Iv.lean ====
section
/-! DEFINITION. The IV/nonce parser (spec/41_iv_codec.md). -/

namespace Sys2Proof.Machine

/-- `NONCE = IV[0..8)`, a view of the IV register (R35, R120). -/
def nonce (s : State) : Bytes 8 := slice s.iv 0 8

/-- `CTR0 = BE64(IV[8..16))`, a view of the IV register (R35, R120). -/
def ctr0 (s : State) : BitVec 64 := be64 (slice s.iv 8 8)

/-- `StartStream()`: the cipher handle becomes live (R123). -/
def startStream (s : State) : State := { s with ctr := ctr0 s, offset := 0, exh := false, phase := .stream }

/-- The IV register after one more envelope byte: `IV[IVLEN] <- b; IVLEN <- IVLEN + 1` (R122). At an
IVLEN of 16 or more, which no run reaches, nothing is stored (DESIGN CHOICE, notes/assumptions/10.md). -/
def storeIVByte (b : Byte) (s : State) : State :=
  { s with iv := s.iv.setIfInBounds s.ivlen.toNat b, ivlen := s.ivlen + 1 }

/-- `IngestIVByte(b)`: an envelope byte in IV_PARSE fills the IV; the 16th starts the stream; nothing is emitted
(R122). -/
def ingestIVByte (b : Byte) (s : State) : State :=
  if (storeIVByte b s).ivlen = 16 then startStream (storeIVByte b s) else storeIVByte b s

end Sys2Proof.Machine
end

