-- ==== Sys2Proof/Machine/Ctr.lean ====
section
/-! DEFINITION. The counter unit, the keystream and the XOR pipeline (spec/43_ctr_pipeline.md): DATA1, DATA2, DATA3. -/

namespace Sys2Proof.Machine

/-- `CounterBlock() = NONCE || BE64bytes(CTR)` (R65, R170). -/
def counterBlock (s : State) : Block := joinHalves (nonce s) (be64Bytes s.ctr)

/-- `KeystreamBlock() = AES256_Encrypt(SKEY, CounterBlock())` (R171). -/
def keystreamBlock (s : State) : Block := aes256Encrypt s.skey (counterBlock s)

/-- `KeystreamByte() = KeystreamBlock()[OFFSET]`, computed from the state: there is no keystream buffer (R36, R172). -/
def keystreamByte (s : State) : Byte := (keystreamBlock s)[s.offset.toNat]

/-- The counter-increment unit at the end of a block: OFFSET 0, the counter one on modulo 2^64, and EXH if it has come
back to its start (R174, R175). The nonce is not touched. -/
def nextBlock (s : State) : State :=
  { s with offset := 0, ctr := s.ctr + 1, exh := if s.ctr + 1 = ctr0 s then true else s.exh }

/-- `Advance()`, after every transformed byte (R174). -/
def advance (s : State) : State :=
  if s.offset = 15 then nextBlock s else { s with offset := s.offset + 1 }

/-- A data byte in STREAM with EXH = 0: emit its XOR with the keystream byte, then advance (R173, R176). -/
def transformByte (b : Byte) (s : State) : State := advance (emit (b ^^^ keystreamByte s) s)

/-- What one data byte leads to (R176): the command goes on to its next byte, or the byte raised and the command has
ended. -/
inductive ByteOutcome where
  | goOn (s : State)
  | raised (s : State)
  deriving DecidableEq, Repr

/-- `ProcessByte(b)` (R176). It is never called in IDLE, which the DATA commands turn away first; that arm is a
DESIGN CHOICE (notes/assumptions/10.md). -/
def processByte (b : Byte) (s : State) : ByteOutcome :=
  match s.phase with
  | .idle => .goOn s
  | .ivParse => .goOn (ingestIVByte b s)
  | .stream => if s.exh then .raised (raise .keystreamExhausted s) else .goOn (transformByte b s)

/-- The bytes of one DATA command, in stream order, each seeing the state the one before it left; a byte that raises
ends the command, and the bytes before it keep their effects (R176, R254). -/
def processBytes : List Byte → State → State
  | [], s => s
  | b :: bs, s =>
    match processByte b s with
    | .goOn t => processBytes bs t
    | .raised t => t

/-- A DATA command with these data bytes (R177–R179): NoSession in IDLE, before any byte. -/
def transferData (bs : List Byte) (s : State) : State :=
  match s.phase with
  | .idle => raise .noSession s
  | .ivParse => processBytes bs s
  | .stream => processBytes bs s

/-- DATA1 d0 (R177). -/
def execData1 (d0 : Byte) (s : State) : Host.Outcome State Fault Refusal := .next (unlessError (transferData [d0]) s)

/-- DATA2 d0, d1 (R178). -/
def execData2 (d0 d1 : Byte) (s : State) : Host.Outcome State Fault Refusal :=
  .next (unlessError (transferData [d0, d1]) s)

/-- DATA3 d0, d1, d2 (R179). -/
def execData3 (d0 d1 d2 : Byte) (s : State) : Host.Outcome State Fault Refusal :=
  .next (unlessError (transferData [d0, d1, d2]) s)

end Sys2Proof.Machine
end

