-- ==== Sys2Proof/Machine/Key.lean ====
section
/-! DEFINITION. Key loading and the key-length validator (spec/40_key_validator.md): KCLR, KBYTE. -/

namespace Sys2Proof.Machine

/-- `KeyValid()`: `KEYLEN = 32` (R100). -/
def keyValid (s : State) : Bool := s.keylen == BitVec.ofNat 6 Config.keyBytes

/-- `LatchKey()`: the session key becomes a copy of the key buffer (R103). -/
def latchKey (s : State) : State := { s with skey := s.keybuf }

/-- KCLR's effect: an empty key buffer (R101). -/
def clearKey (s : State) : State := { s with keybuf := Bytes.zero 32, keylen := 0 }

/-- KEYLEN after one more key byte: one more, saturating at 63 (R102). -/
def bumpKeylen (n : BitVec 6) : BitVec 6 := BitVec.ofNat 6 (min (n.toNat + 1) Config.keylenMax)

/-- KBYTE's effect: store the byte if it is one of the first 32, count it in any case (R102). -/
def appendKeyByte (b : Byte) (s : State) : State :=
  { s with
    keybuf := if s.keylen.toNat < Config.keyBytes then s.keybuf.setIfInBounds s.keylen.toNat b else s.keybuf,
    keylen := bumpKeylen s.keylen }

/-- KCLR (R101): allowed in every phase; SKEY is not touched. -/
def execKclr (s : State) : Host.Outcome State Fault Refusal := .next (unlessError clearKey s)

/-- KBYTE b (R102): a byte beyond the 32nd is counted and not stored; no error is raised here. -/
def execKbyte (b : Byte) (s : State) : Host.Outcome State Fault Refusal := .next (unlessError (appendKeyByte b) s)

end Sys2Proof.Machine
end

