-- ==== Sys2Proof/Machine/Session.lean ====
section
/-! DEFINITION. The session commands (spec/44_envelope_session.md): ENCSTART, DECSTART, END, ABORT. -/

namespace Sys2Proof.Machine

/-- An encrypt session with the drawn IV: hold it, emit it ahead of any ciphertext, latch the key, start the stream
(R201). -/
def beginEncrypt (iv : Block) (s : State) : State :=
  startStream { latchKey (emitAll iv.toList { s with iv := iv, ivlen := 16 }) with dir := .encrypt }

/-- ENCSTART once the phase and the key are found good: one draw, then the session or EntropyFailure (R201). -/
def drawAndBegin (s : State) : State :=
  match draw16 s with
  | (.fail, t) => raise .entropyFailure t
  | (.bytes iv, t) => beginEncrypt iv t

/-- ENCSTART's checks in the order of R253: phase, key, entropy (R201). -/
def openEncrypt (s : State) : State :=
  if s.phase ≠ .idle then raise .sessionActive s
  else if ¬ keyValid s then raise .invalidKeyLength s
  else drawAndBegin s

/-- A decrypt session waiting for its 16 IV bytes (R202). -/
def beginDecrypt (s : State) : State :=
  { latchKey { s with iv := Bytes.zero 16, ivlen := 0, ctr := 0, offset := 0, exh := false } with
    dir := .decrypt, phase := .ivParse }

/-- DECSTART's checks in the order of R253: phase, key (R202). It neither draws nor emits. -/
def openDecrypt (s : State) : State :=
  if s.phase ≠ .idle then raise .sessionActive s
  else if ¬ keyValid s then raise .invalidKeyLength s
  else beginDecrypt s

/-- END's effect by phase (R203, R124). -/
def closeSession (s : State) : State :=
  match s.phase with
  | .idle => raise .noSession s
  | .ivParse => raise .truncatedEnvelope s
  | .stream => clearSession s

/-- ENCSTART (R201). -/
def execEncstart (s : State) : Host.Outcome State Fault Refusal := .next (unlessError openEncrypt s)

/-- DECSTART (R202). -/
def execDecstart (s : State) : Host.Outcome State Fault Refusal := .next (unlessError openDecrypt s)

/-- END (R203). -/
def execEndSession (s : State) : Host.Outcome State Fault Refusal := .next (unlessError closeSession s)

/-- ABORT (R204): the session is cleared in any phase, with no error. -/
def execAbort (s : State) : Host.Outcome State Fault Refusal := .next (unlessError clearSession s)

end Sys2Proof.Machine
end

