-- ==== Sys2Proof/Machine/System.lean ====
section
/-! DEFINITION. The system commands (spec/45_system_commands.md): NOP, ERRCLR, SRESET, the three words that execute in
the error state too (R252). -/

namespace Sys2Proof.Machine

/-- NOP (R230): no field changes, in or out of the error state. -/
def execNop (s : State) : Host.Outcome State Fault Refusal := .next s

/-- ERRCLR (R231). -/
def execErrclr (s : State) : Host.Outcome State Fault Refusal := .next (acknowledge s)

/-- SRESET (R232, R281). -/
def execSreset (s : State) : Host.Outcome State Fault Refusal := .next (resetState s)

end Sys2Proof.Machine
end

