-- ==== Sys2Proof/Machine/Dispatch.lean ====
section
/-! DEFINITION. What each command does: one arm per command of spec/30_encoding.md R85. -/

namespace Sys2Proof.Machine

def exec (i : Instr) (s : State) : Host.Outcome State Fault Refusal :=
  match i with
  | .nop => Sys2Proof.Machine.execNop s
  | .errclr => Sys2Proof.Machine.execErrclr s
  | .sreset => Sys2Proof.Machine.execSreset s
  | .kclr => Sys2Proof.Machine.execKclr s
  | .kbyte b => Sys2Proof.Machine.execKbyte b s
  | .encstart => Sys2Proof.Machine.execEncstart s
  | .decstart => Sys2Proof.Machine.execDecstart s
  | .endSession => Sys2Proof.Machine.execEndSession s
  | .abort => Sys2Proof.Machine.execAbort s
  | .data1 d0 => Sys2Proof.Machine.execData1 d0 s
  | .data2 d0 d1 => Sys2Proof.Machine.execData2 d0 d1 s
  | .data3 d0 d1 d2 => Sys2Proof.Machine.execData3 d0 d1 d2 s

end Sys2Proof.Machine
end

