-- ==== Sys2Proof/Machine/Flags.lean ====
section
/-! DEFINITION. The codes of the status fields and the STATUS word (spec/10_state.md R30–R33, R39;
spec/60_exceptions.md R250). -/

namespace Sys2Proof.Machine

/-- The two-bit code of PHASE (R30). -/
def phaseCode : Phase → BitVec 2
  | .idle => 0
  | .ivParse => 1
  | .stream => 2

/-- The bit of DIR (R31). -/
def dirCode : Dir → BitVec 1
  | .encrypt => 0
  | .decrypt => 1

/-- The four-bit code of an error (R250). -/
def errorCode : EngineError → BitVec 4
  | .invalidKeyLength => 1
  | .truncatedEnvelope => 2
  | .illegalCommand => 3
  | .noSession => 4
  | .sessionActive => 5
  | .keystreamExhausted => 6
  | .entropyFailure => 7

/-- The four bits of ERRCODE, 0 when no error is pending (R32, R250). -/
def errcodeBits : Option EngineError → BitVec 4
  | none => 0
  | some e => errorCode e

/-- The STATUS word (R39): bit fields from bit 0 up, bits [31:25] reserved and 0 (R43). Bit 9 is the `err` output
(R255). -/
def statusWord (s : State) : Word :=
  (phaseCode s.phase).setWidth 32 ||| (dirCode s.dir).setWidth 32 <<< 2 ||| (BitVec.ofBool s.exh).setWidth 32 <<< 3 |||
  (errcodeBits s.errcode).setWidth 32 <<< 4 ||| (BitVec.ofBool s.dropped).setWidth 32 <<< 8 |||
  (BitVec.ofBool (errOutput s)).setWidth 32 <<< 9 ||| s.keylen.setWidth 32 <<< 10 ||| s.offset.setWidth 32 <<< 16 |||
  s.ivlen.setWidth 32 <<< 20

end Sys2Proof.Machine
end

