-- ==== Sys2Proof/Machine/RegisterPort.lean ====
section
/-! DEFINITION. The register read port (spec/10_state.md section 3, spec/45_system_commands.md R233). All registers are
read-only; no address returns KEYBUF or SKEY (R44), and there is no identification register (R234). -/

namespace Sys2Proof.Machine

/-- `REG(a)`: the word the register read port returns for word address `a` (R39–R43, R67, R233). -/
def readReg (s : State) (a : BitVec 4) : Word :=
  match a.toNat with
  | 0x0 => statusWord s
  | 0x1 => s.ctr.extractLsb' 32 32
  | 0x2 => s.ctr.extractLsb' 0 32
  | 0x3 => be32 (slice s.iv 0 4)
  | 0x4 => be32 (slice s.iv 4 4)
  | 0x5 => be32 (slice s.iv 8 4)
  | 0x6 => be32 (slice s.iv 12 4)
  | _ => 0

/-- A register read transaction: the host gets the word; no field of the engine changes, nothing is emitted, and no
error is raised in any state (R63, R71, R233). -/
def serveRead (a : BitVec 4) (s : State) : State := { s with readback := s.readback ++ [readReg s a] }

end Sys2Proof.Machine
end

