-- ==== Sys2Proof/Machine/Port.lean ====
section
/-! DEFINITION. How the engine takes one port event (spec/00_scope.md R8, spec/20_memory.md R60–R63, R72, R74). -/

namespace Sys2Proof.Machine

/-- Execute one command word (R85–R87): the command it decodes to, or the effect of an illegal word. The error-state
filter of R253 comes first in the spec's order; it stands in the meanings and in `illegalWord`, and since decoding
changes nothing the order cannot be told apart (DEDUCED, notes/assumptions/6.md). -/
def execWord (w : Word) (s : State) : Host.Outcome State Fault Refusal :=
  match decode w with
  | .ok i => exec i s
  | .error _ => .next (illegalWord s)

/-- Take one port event (R72): it sees the effect of every event before it. -/
def takeEvent (e : PortEvent) (s : State) : Host.Outcome State Fault Refusal :=
  match e with
  | .command w => execWord w s
  | .readRegister a => .next (serveRead a s)
  | .reset => .next (resetState s)

/-- Take the oldest pending event, consumed once and never executed again (R74). With none pending the engine waits:
the state stands as it is (R292; DESIGN CHOICE, notes/assumptions/3.md). -/
def takeNextEvent (s : State) : Host.Outcome State Fault Refusal :=
  match s.pending with
  | [] => .next s
  | e :: rest => takeEvent e { s with pending := rest }

/-- The host has issued the command word `w` to be taken next (DESIGN CHOICE, notes/assumptions/4.md). -/
def offerWord (w : Word) (s : State) : State := { s with pending := .command w :: s.pending }

end Sys2Proof.Machine
end

