-- ==== Sys2Proof/Machine/Step.lean ====
section
/-! DEFINITION. One step of the machine: one event at the engine's ports (spec/70_reset_and_hazards.md R291, R292). -/

namespace Sys2Proof.Machine

/-- One step: the engine takes the oldest pending port event (R8, R72, R291). -/
def step (s : State) : Host.Outcome State Fault Refusal := takeNextEvent s

/-- `s` with the command word that the opcode table's bits `w` stand for issued as the next event on the command port,
which is where the engine takes its next command from (R61, R74). -/
def State.withFetchWord (s : State) (nbits w : Nat) : State := offerWord (tableWord nbits w) s

end Sys2Proof.Machine
end

