-- ==== Sys2Proof/WellFormed.lean ====
section
/-! DEFINITION. Well-formedness. A term of `Instr` is well-formed by construction: its operands are bytes. What can be
ill-formed is what the host writes down before it is a command: a line of the assembler, whose operands are plain
numbers (spec/30_encoding.md R89: "an operand out of range is an assembly error, never a truncated word"). -/

namespace Sys2Proof

/-- A line of the assembler (R89) or one of its pseudo-instructions (R90–R92), operands as the numbers written. -/
inductive AsmLine where
  | nop | errclr | sreset | kclr
  | kbyte (b : Nat)
  | encstart | decstart | endSession | abort
  | data1 (d0 : Nat)
  | data2 (d0 d1 : Nat)
  | data3 (d0 d1 d2 : Nat)
  /-- `KEY k0 k1 .. k(m-1)` (R90); any number of key bytes, the engine checks it, not the assembler. -/
  | key (ks : List Nat)
  /-- `BYTES s` (R91). -/
  | bytes (s : List Nat)
  /-- `BYTES/n s`, n = 1, 2 or 3 (R91). -/
  | bytesBy (n : Nat) (s : List Nat)
  /-- `ENCRYPT p` (R92). -/
  | encrypt (p : List Nat)
  /-- `DECRYPT env` (R92). -/
  | decrypt (env : List Nat)
  deriving DecidableEq, Repr

/-- An operand is 0..255 (R89). -/
def operandOk (n : Nat) : Bool := decide (n < 256)

/-- Every operand of the line is in range, and `BYTES/n` names a DATA command that exists (R83, R89, R91). -/
def AsmLine.wellFormed : AsmLine → Bool
  | .nop => true
  | .errclr => true
  | .sreset => true
  | .kclr => true
  | .kbyte b => operandOk b
  | .encstart => true
  | .decstart => true
  | .endSession => true
  | .abort => true
  | .data1 d0 => operandOk d0
  | .data2 d0 d1 => operandOk d0 && operandOk d1
  | .data3 d0 d1 d2 => operandOk d0 && operandOk d1 && operandOk d2
  | .key ks => ks.all operandOk
  | .bytes s => s.all operandOk
  | .bytesBy n s => (n == 1 || n == 2 || n == 3) && s.all operandOk
  | .encrypt p => p.all operandOk
  | .decrypt env => env.all operandOk

end Sys2Proof
end

