-- ==== Sys2Proof/Machine/Assembler.lean ====
section
/-! DEFINITION. The assembler and its pseudo-instructions (spec/30_encoding.md R89–R92): how the host's lines become
command words. It runs outside the engine; the engine sees the words only. -/

namespace Sys2Proof.Machine

/-- Why a line assembles to nothing (R89). -/
inductive AsmError where
  /-- The line is none of the forms of R89–R92. -/
  | syntaxError
  /-- An operand is not 0..255, or `BYTES/n` names no DATA command. -/
  | operandOutOfRange
  deriving DecidableEq, Repr

/-- `KEY k0 .. k(m-1)`: KCLR, then one KBYTE a byte, m not checked (R90). -/
def keyCommands (ks : List Byte) : List Instr := .kclr :: ks.map .kbyte

/-- `BYTES s`: DATA3 words, then one DATA2 or DATA1 for what is left (R91). -/
def bytesCommands : List Byte → List Instr
  | a :: b :: c :: rest => .data3 a b c :: bytesCommands rest
  | [a, b] => [.data2 a b]
  | [a] => [.data1 a]
  | [] => []

/-- `BYTES/2 s` (R91). -/
def bytesBy2 : List Byte → List Instr
  | a :: b :: rest => .data2 a b :: bytesBy2 rest
  | [a] => [.data1 a]
  | [] => []

/-- `BYTES/n s`: DATAn words only, one shorter word at the end if n does not divide the length (R91). -/
def bytesByCommands (n : Nat) (s : List Byte) : List Instr :=
  match n with
  | 1 => s.map .data1
  | 2 => bytesBy2 s
  | _ => bytesCommands s

/-- `ENCRYPT p` = `ENCSTART; BYTES p; END` (R92). -/
def encryptCommands (p : List Byte) : List Instr := .encstart :: bytesCommands p ++ [.endSession]

/-- `DECRYPT env` = `DECSTART; BYTES env; END` (R92). -/
def decryptCommands (env : List Byte) : List Instr := .decstart :: bytesCommands env ++ [.endSession]

/-- A number that is in range, as a byte. -/
def toByte (n : Nat) : Byte := BitVec.ofNat 8 n

/-- The commands of a line whose operands are in range (R89–R92). -/
def lineCommands : AsmLine → List Instr
  | .nop => [.nop]
  | .errclr => [.errclr]
  | .sreset => [.sreset]
  | .kclr => [.kclr]
  | .kbyte b => [.kbyte (toByte b)]
  | .encstart => [.encstart]
  | .decstart => [.decstart]
  | .endSession => [.endSession]
  | .abort => [.abort]
  | .data1 d0 => [.data1 (toByte d0)]
  | .data2 d0 d1 => [.data2 (toByte d0) (toByte d1)]
  | .data3 d0 d1 d2 => [.data3 (toByte d0) (toByte d1) (toByte d2)]
  | .key ks => keyCommands (ks.map toByte)
  | .bytes s => bytesCommands (s.map toByte)
  | .bytesBy n s => bytesByCommands n (s.map toByte)
  | .encrypt p => encryptCommands (p.map toByte)
  | .decrypt env => decryptCommands (env.map toByte)

/-- The words of a line; an operand out of range is an error, never a truncated word (R89). -/
def assemble (l : AsmLine) : Except AsmError (List Word) :=
  if l.wellFormed then .ok ((lineCommands l).map encode) else .error .operandOutOfRange

/-- The value of a hexadecimal digit. -/
def hexDigit (c : Char) : Option Nat :=
  if '0' ≤ c ∧ c ≤ '9' then some (c.toNat - 48)
  else if 'a' ≤ c ∧ c ≤ 'f' then some (c.toNat - 87)
  else if 'A' ≤ c ∧ c ≤ 'F' then some (c.toNat - 55)
  else none

/-- Digits in a base, continued from `acc`; none at a character that is no digit of it. -/
def digitsFrom (base : Nat) (acc : Nat) : List Char → Option Nat
  | [] => some acc
  | c :: cs =>
    match hexDigit c with
    | some d => if d < base then digitsFrom base (base * acc + d) cs else none
    | none => none

/-- A number of R89: hexadecimal with `0x`, or decimal. -/
def number : List Char → Option Nat
  | [] => none
  | ['0', 'x'] => none
  | '0' :: 'x' :: ds => digitsFrom 16 0 ds
  | ds => digitsFrom 10 0 ds

/-- A run of byte values written as pairs of hexadecimal digits, the form in which R91's example gives `s`. -/
def hexPairs : List Char → Option (List Nat)
  | [] => some []
  | [_] => none
  | a :: b :: rest =>
    match hexDigit a, hexDigit b, hexPairs rest with
    | some x, some y, some zs => some ((16 * x + y) :: zs)
    | _, _, _ => none

/-- The pieces between the characters that `p` picks out. -/
def splitAt (p : Char → Bool) : List Char → List (List Char)
  | [] => [[]]
  | c :: cs =>
    if p c then [] :: splitAt p cs
    else
      match splitAt p cs with
      | [] => [[c]]
      | w :: ws => (c :: w) :: ws

/-- White space within a line. -/
def isBlank (c : Char) : Bool := c == ' ' || c == '\t' || c == '\r'

/-- The words of a line: the pieces between white space that are not empty. -/
def blankSeparated (cs : List Char) : List (List Char) := (splitAt isBlank cs).filter fun w => !w.isEmpty

/-- The one word of an operand with white space around it; anything else is no operand. -/
def soleWord (cs : List Char) : Option (List Char) :=
  match blankSeparated cs with
  | [w] => some w
  | _ => none

/-- All of a list of options, or none. -/
def allSome {α : Type} : List (Option α) → Option (List α)
  | [] => some []
  | x :: xs =>
    match x, allSome xs with
    | some a, some as => some (a :: as)
    | _, _ => none

/-- Operands separated by commas, as R89 writes `DATA2 d0, d1`. -/
def commaNumbers (cs : List Char) : Option (List Nat) :=
  allSome ((splitAt (· == ',') cs).map fun p => (soleWord p).bind number)

/-- Operands separated by white space, as R90 writes `KEY k0 k1 ..`. -/
def blankNumbers (cs : List Char) : Option (List Nat) := allSome ((blankSeparated cs).map number)

/-- A byte string, as R91 writes `BYTES 48 69 21`. -/
def byteString (cs : List Char) : Option (List Nat) := (allSome ((blankSeparated cs).map hexPairs)).map List.flatten

/-- The operand in quotation marks that R90's example gives a key in: the byte of each ASCII character. -/
def quotedBytes (cs : List Char) : Option (List Nat) :=
  match cs.dropWhile isBlank with
  | '"' :: body =>
    let characters := body.takeWhile fun c => c != '"'
    match body.dropWhile fun c => c != '"' with
    | '"' :: after =>
      if after.all isBlank && characters.all (fun c => decide (c.toNat < 128)) then some (characters.map Char.toNat)
      else none
    | _ => none
  | _ => none

/-- The operands of KEY: numbers, or one quoted string (R90). -/
def keyOperands (cs : List Char) : Option (List Nat) := (quotedBytes cs).or (blankNumbers cs)

/-- A line up to its comment, which starts at the first `;` outside a quoted string (R89, R90). -/
def withoutComment (quoted : Bool) : List Char → List Char
  | [] => []
  | c :: cs =>
    if c == ';' && !quoted then [] else c :: withoutComment (if c == '"' then !quoted else quoted) cs

/-- The line that a mnemonic, in capitals, and the text after it make (R89–R92). -/
def parseCommand (mnemonic : List Char) (rest : List Char) : Option AsmLine :=
  match String.ofList mnemonic, commaNumbers rest, blankNumbers rest, byteString rest with
  | "NOP", _, some [], _ => some .nop
  | "ERRCLR", _, some [], _ => some .errclr
  | "SRESET", _, some [], _ => some .sreset
  | "KCLR", _, some [], _ => some .kclr
  | "KBYTE", some [b], _, _ => some (.kbyte b)
  | "ENCSTART", _, some [], _ => some .encstart
  | "DECSTART", _, some [], _ => some .decstart
  | "END", _, some [], _ => some .endSession
  | "ABORT", _, some [], _ => some .abort
  | "DATA1", some [d0], _, _ => some (.data1 d0)
  | "DATA2", some [d0, d1], _, _ => some (.data2 d0 d1)
  | "DATA3", some [d0, d1, d2], _, _ => some (.data3 d0 d1 d2)
  | "KEY", _, _, _ => (keyOperands rest).map .key
  | "BYTES", _, _, some s => some (.bytes s)
  | "BYTES/1", _, _, some s => some (.bytesBy 1 s)
  | "BYTES/2", _, _, some s => some (.bytesBy 2 s)
  | "BYTES/3", _, _, some s => some (.bytesBy 3 s)
  | "ENCRYPT", _, _, some p => some (.encrypt p)
  | "DECRYPT", _, _, some env => some (.decrypt env)
  | _, _, _, _ => none

/-- The first word of a line, in capitals, and what follows it. -/
def mnemonicAndRest (cs : List Char) : List Char × List Char :=
  let body := cs.dropWhile isBlank
  ((body.takeWhile fun c => !isBlank c).map Char.toUpper, body.dropWhile fun c => !isBlank c)

/-- The command words of one line of text: a comment starts with `;`, mnemonics are case-insensitive, an empty line is
no word (R89; the conventions R89–R92 leave open are a DESIGN CHOICE, notes/assumptions/12.md). -/
def assembleText (cs : List Char) : Except AsmError (List Word) :=
  let code := withoutComment false cs
  if code.all isBlank then .ok []
  else
    match parseCommand (mnemonicAndRest code).1 (mnemonicAndRest code).2 with
    | some l => assemble l
    | none => .error .syntaxError

end Sys2Proof.Machine
end

