-- ==== Sys2Proof/Safety.lean ====
section
/-! DEFINITION. The terms in which claims about the engine are stated: the invariants of a reachable state, sequences of
commands, the data they carry, the keystream by position, and states that differ only in what must stay secret. -/

namespace Sys2Proof.Machine

/-- What every reachable state satisfies, clause (a) to (f) of R37 in order. -/
structure State.Inv (s : State) : Prop where
  /-- (a): nothing of a session is left in IDLE. -/
  idle : s.phase = .idle → s.skey = Bytes.zero 32 ∧ s.iv = Bytes.zero 16 ∧ s.ivlen = 0 ∧ s.ctr = 0 ∧ s.offset = 0 ∧
    s.exh = false ∧ s.dir = .encrypt
  /-- (b): a decrypt session that waits for IV bytes. -/
  parsing : s.phase = .ivParse → s.dir = .decrypt ∧ s.ivlen.toNat ≤ 15 ∧
    (∀ i : Fin 16, s.ivlen.toNat ≤ i.val → s.iv[i] = 0) ∧ s.ctr = 0 ∧ s.offset = 0 ∧ s.exh = false
  /-- (c): a live stream holds a whole IV. -/
  streaming : s.phase = .stream → s.ivlen = 16
  /-- (d): no session is open in the error state. -/
  errorIdle : s.errcode ≠ none → s.phase = .idle
  /-- (e): the key buffer holds nothing beyond the bytes supplied. -/
  key : s.keylen.toNat ≤ 63 ∧ ∀ i : Fin 32, min s.keylen.toNat 32 ≤ i.val → s.keybuf[i] = 0
  /-- (f): a word is only dropped in the error state. -/
  droppedError : s.dropped = true → s.errcode ≠ none

/-- EXH is set only where the counter is back at its start, at a block boundary of a live stream (R29, R174, R175). -/
def State.ExhInv (s : State) : Prop := s.exh = true → s.phase = .stream ∧ s.ctr = ctr0 s ∧ s.offset = 0

/-- A sequence of commands, one after another; it ends at the first that answers no next state. -/
def runCommands : List Instr → State → Host.Outcome State Fault Refusal
  | [], s => .next s
  | i :: is, s =>
    match exec i s with
    | .next t => runCommands is t
    | .fault r => .fault r
    | .refused r => .refused r

/-- The line assembles exactly when `inRange` holds, and then to words that decode, one by one, to the commands `is`;
else it is an assembly error (R89). -/
def AssemblesTo (l : AsmLine) (inRange : Prop) (is : List Instr) : Prop :=
  (inRange → ∃ ws, assemble l = .ok ws ∧ ws.map decode = is.map .ok) ∧
  (¬inRange → assemble l = .error .operandOutOfRange)

/-- The product, without carries, of the polynomial whose coefficients are the bits of `a` and the low `n` bits of `b`
(R142). -/
def polyProduct (a b : Nat) : Nat → Nat
  | 0 => 0
  | n + 1 => polyProduct a b n ^^^ (if b.testBit n then a <<< n else 0)

/-- The remainder modulo `x^8 + x^4 + x^3 + x + 1`, whose bits are 0x11B, of a polynomial of degree below `8 + n`: its
coefficients from the highest down to that of `x^8` are cleared one by one (R142). -/
def polyReduce : Nat → Nat → Nat
  | 0, p => p
  | n + 1, p => polyReduce n (if p.testBit (n + 8) then p ^^^ (0x11B <<< n) else p)

/-- The data bytes of a DATA command in stream order (R84); none for any other command. -/
def dataBytes : Instr → Option (List Byte)
  | .nop => none
  | .errclr => none
  | .sreset => none
  | .kclr => none
  | .kbyte _ => none
  | .encstart => none
  | .decstart => none
  | .endSession => none
  | .abort => none
  | .data1 d0 => some [d0]
  | .data2 d0 d1 => some [d0, d1]
  | .data3 d0 d1 d2 => some [d0, d1, d2]

/-- The bytes that a sequence of DATA commands carries, in command order (R180); none if another command stands in
it. -/
def dataStream : List Instr → Option (List Byte)
  | [] => some []
  | i :: is =>
    match dataBytes i, dataStream is with
    | some bs, some rest => some (bs ++ rest)
    | _, _ => none

/-- The keystream byte at position `i` of the stream of key `k` and IV `v`: `KS_v(i)` of R206 (R181). -/
def keystreamAt (k : Key) (v : Block) (i : Nat) : Byte :=
  (aes256Encrypt k (joinHalves (slice v 0 8) (be64Bytes (be64 (slice v 8 8) + BitVec.ofNat 64 (i / 16)))))[i % 16]'(by
    omega)

/-- A byte string XORed with the keystream of key `k` and IV `v` from position 0 on (R181, R206, R207). -/
def xorStream (k : Key) (v : Block) (bs : List Byte) : List Byte := bs.mapIdx fun i b => b ^^^ keystreamAt k v i

/-- The keystream byte `j` positions after the one the state stands at (R170–R174). -/
def keystreamAhead (s : State) (j : Nat) : Byte :=
  (aes256Encrypt s.skey
    (joinHalves (nonce s) (be64Bytes (s.ctr + BitVec.ofNat 64 ((s.offset.toNat + j) / 16)))))[(s.offset.toNat + j) % 16]'(by
    omega)

/-- The two states differ in KEYBUF and SKEY at most: what the host must not learn (R44). -/
def SameButKeys (s t : State) : Prop := t = { s with keybuf := t.keybuf, skey := t.skey }

/-- The two states differ in KEYBUF, SKEY and the values of the bytes on OUT at most, as many of them on both: what a
wrong key may change (R184, R261). -/
def SameButKeysAndOutput (s t : State) : Prop :=
  t = { s with keybuf := t.keybuf, skey := t.skey, out := t.out } ∧ t.out.length = s.out.length

/-- The key that a KEY line of these bytes leaves in the buffer: the first 32, the rest 0 (R22, R90). -/
def loadedKey (ks : List Byte) : Key := Vector.ofFn fun i => ks.getD i.val 0

end Sys2Proof.Machine
end

