-- ==== Sys2Proof/Certificates/Slice0/Obligations.lean ====
section
/-! DEFINITION. The statements about the engine, from the numbered rules of spec/. The engine has no memory, no general
registers and no program counter (R20, R21, R60), so a frame is a frame over the fields of State: where a statement gives
the next state as `{ s with .. }`, every field it does not name is unchanged, OUT and the model's own fields with them.
Properties that the spec marks as derived from its own rules (R37, R125, R180–R185, R206–R208) are stated here as
consequences of those rules, not as rules. -/

open Sys2Proof Sys2Proof.Machine

/-! ### Command words (spec/30_encoding.md) -/

/-- Words written out from the bit fields of R81–R84, one for each format and one for each kind of illegal word, decode
to what they stand for. -/
def Obligations.DecodeWrittenWords : Prop :=
  decode 0x21000000 = .ok .decstart ∧ decode 0x110000ab = .ok (.kbyte 0xab) ∧ decode 0x31000021 = .ok (.data1 0x21) ∧
  decode 0x32004869 = .ok (.data2 0x48 0x69) ∧ decode 0x33ff6bc1 = .ok (.data3 0xff 0x6b 0xc1) ∧
  decode 0x30000000 = .error (.unassignedOpcode 0x30) ∧ decode 0x32010000 = .error (.reservedBits 0x32)

/-- R81–R85: the word of a command decodes to that command, with every operand at every value its format admits. -/
def Obligations.DecodeEncodeRoundTrip : Prop := ∀ i : Instr, decode (encode i) = .ok i

/-- R85, R87: no two words decode to one command; a word that decodes is the command's own word. -/
def Obligations.DecodedWordIsTheEncoding : Prop := ∀ (w : Word) (i : Instr), decode w = .ok i → encode i = w

/-- R85: a word decodes to the command in the row whose mask and match it satisfies, and at most one row matches it. -/
def Obligations.DecodeFollowsOpcodeMap : Prop :=
  ∀ w : Word,
    (∀ r ∈ opcodeMap, r.matchesWord w = true ↔ ∃ i, decode w = .ok i ∧ i.mnemonic = r.mnemonic) ∧
    (opcodeMap.filter fun r => r.matchesWord w).length ≤ 1

/-- R89–R92: each line of the assembler assembles exactly when every operand is 0..255, else it is an error; its words
decode, one by one, to the command the line names, KEY to KCLR and one KBYTE a byte, ENCRYPT and DECRYPT to the BYTES
commands between ENCSTART or DECSTART and END. -/
def Obligations.AssembledWordsDecode : Prop :=
  (AssemblesTo .nop True [.nop] ∧ AssemblesTo .errclr True [.errclr] ∧ AssemblesTo .sreset True [.sreset] ∧
    AssemblesTo .kclr True [.kclr] ∧ AssemblesTo .encstart True [.encstart] ∧ AssemblesTo .decstart True [.decstart] ∧
    AssemblesTo .endSession True [.endSession] ∧ AssemblesTo .abort True [.abort]) ∧
  (∀ b : Nat, AssemblesTo (.kbyte b) (b ≤ 255) [.kbyte (BitVec.ofNat 8 b)]) ∧
  (∀ d0 : Nat, AssemblesTo (.data1 d0) (d0 ≤ 255) [.data1 (BitVec.ofNat 8 d0)]) ∧
  (∀ d0 d1 : Nat, AssemblesTo (.data2 d0 d1) (d0 ≤ 255 ∧ d1 ≤ 255) [.data2 (BitVec.ofNat 8 d0) (BitVec.ofNat 8 d1)]) ∧
  (∀ d0 d1 d2 : Nat, AssemblesTo (.data3 d0 d1 d2) (d0 ≤ 255 ∧ d1 ≤ 255 ∧ d2 ≤ 255)
    [.data3 (BitVec.ofNat 8 d0) (BitVec.ofNat 8 d1) (BitVec.ofNat 8 d2)]) ∧
  ∀ ns : List Nat,
    AssemblesTo (.key ns) (∀ k ∈ ns, k ≤ 255) (.kclr :: ns.map fun k => .kbyte (BitVec.ofNat 8 k)) ∧
    AssemblesTo (.bytes ns) (∀ k ∈ ns, k ≤ 255) (bytesCommands (ns.map (BitVec.ofNat 8))) ∧
    (∀ n : Nat, AssemblesTo (.bytesBy n ns) ((n = 1 ∨ n = 2 ∨ n = 3) ∧ ∀ k ∈ ns, k ≤ 255)
      (bytesByCommands n (ns.map (BitVec.ofNat 8)))) ∧
    AssemblesTo (.encrypt ns) (∀ k ∈ ns, k ≤ 255)
      (.encstart :: bytesCommands (ns.map (BitVec.ofNat 8)) ++ [.endSession]) ∧
    AssemblesTo (.decrypt ns) (∀ k ∈ ns, k ≤ 255)
      (.decstart :: bytesCommands (ns.map (BitVec.ofNat 8)) ++ [.endSession])

/-- R91: every form of BYTES carries exactly its byte string, in order: BYTES and BYTES/3 in DATA3 words, BYTES/2 in
DATA2 words, BYTES/1 in DATA1 words, with one shorter word at the end for what is left. -/
def Obligations.BytesLineCarriesItsBytes : Prop :=
  (∀ s : List Byte, dataStream (bytesCommands s) = some s ∧
    ∀ n, n = 1 ∨ n = 2 ∨ n = 3 → dataStream (bytesByCommands n s) = some s) ∧
  (∀ (a b c : Byte) (s : List Byte), bytesCommands (a :: b :: c :: s) = .data3 a b c :: bytesCommands s) ∧
  (∀ a b : Byte, bytesCommands [a, b] = [.data2 a b]) ∧ (∀ a : Byte, bytesCommands [a] = [.data1 a]) ∧
  bytesCommands [] = [] ∧ (∀ s : List Byte, bytesByCommands 3 s = bytesCommands s) ∧
  (∀ (a b : Byte) (s : List Byte), bytesByCommands 2 (a :: b :: s) = .data2 a b :: bytesByCommands 2 s) ∧
  (∀ a : Byte, bytesByCommands 2 [a] = [.data1 a]) ∧ ∀ s : List Byte, bytesByCommands 1 s = s.map .data1

/-! ### Steps and port events -/

/-- R8, R61, R74: a step takes the oldest command word, consumes it, and is `exec` of the command it decodes to. There
is no program counter to advance (R21). -/
def Obligations.StepRunsDecodedCommand : Prop :=
  ∀ (s : State) (w : Word) (rest : List PortEvent) (i : Instr),
    s.pending = .command w :: rest → decode w = .ok i → step s = exec i { s with pending := rest }

/-- R86: a word that matches no row of the opcode map raises IllegalCommand outside the error state and has no other
effect; in the error state it is dropped. -/
def Obligations.IllegalWordRaises : Prop :=
  ∀ (s : State) (w : Word) (rest : List PortEvent),
    s.pending = .command w :: rest → (∀ r ∈ opcodeMap, r.matchesWord w = false) →
    (s.errcode = none → step s = .next { s with
      pending := rest, errcode := some .illegalCommand, phase := .idle, dir := .encrypt, skey := Bytes.zero 32,
      iv := Bytes.zero 16, ivlen := 0, ctr := 0, offset := 0, exh := false }) ∧
    (s.errcode ≠ none → step s = .next { s with pending := rest, dropped := true })

/-- R252: in the error state the three exact words execute with their rules, and every other word, legal or illegal,
does nothing but set DROPPED; register reads are answered as ever, and reset leaves the state. What a reset keeps beside
OUT is said in ResetClearsEveryElement (notes/assumptions/8.md). -/
def Obligations.ErrorStateFilter : Prop :=
  ∀ s : State, s.errcode ≠ none →
    (∀ (w : Word) (rest : List PortEvent), s.pending = .command w :: rest →
      (w = 0x00000000 → step s = .next { s with pending := rest }) ∧
      (w = 0x01000000 → step s = .next { s with pending := rest, errcode := none, dropped := false }) ∧
      (w = 0x02000000 → step s = .next (resetState { s with pending := rest })) ∧
      (w ≠ 0x00000000 → w ≠ 0x01000000 → w ≠ 0x02000000 → step s = .next { s with pending := rest, dropped := true })) ∧
    (∀ (a : BitVec 4) (rest : List PortEvent), s.pending = .readRegister a :: rest →
      step s = .next { s with pending := rest, readback := s.readback ++ [readReg s a] }) ∧
    (∀ rest : List PortEvent, s.pending = .reset :: rest → step s = .next (resetState { s with pending := rest }))

/-- R63, R233: a register read returns `REG(a)` of the current state to the host and changes nothing else, in every
state. -/
def Obligations.RegisterReadChangesNothing : Prop :=
  ∀ (s : State) (a : BitVec 4) (rest : List PortEvent), s.pending = .readRegister a :: rest →
    step s = .next { s with pending := rest, readback := s.readback ++ [readReg s a] }

/-- R280–R282: the reset input and SRESET, in and out of the error state, put every element of R280 at 0 (IDLE,
encrypt, no error) and leave OUT and the entropy source; power-on is that state; after it every register reads 0 and
`err` is 0. That reset also keeps what waits in `pending`, what is in `readback` and the request count `draws` is THE
MODEL'S CHOICE (notes/assumptions/8.md; R38 and R282 leave them outside the reset). -/
def Obligations.ResetClearsEveryElement : Prop :=
  (∀ (s : State) (rest : List PortEvent), s.pending = .reset :: rest → step s = exec .sreset { s with pending := rest }) ∧
  (∀ s : State, ∃ t, exec .sreset s = .next t ∧
    t = { s with
      keybuf := Bytes.zero 32, keylen := 0, skey := Bytes.zero 32, iv := Bytes.zero 16, ivlen := 0, ctr := 0, offset := 0,
      exh := false, phase := .idle, dir := .encrypt, errcode := none, dropped := false } ∧
    (∀ a, readReg t a = 0) ∧ errOutput t = false) ∧
  exec .sreset State.reset = .next State.reset

/-- THE MODEL'S CHOICE (notes/assumptions/3.md; the spec has no step without an event): with nothing pending a step
leaves the state as it stands. -/
def Obligations.WaitsWithNothingPending : Prop := ∀ s : State, s.pending = [] → step s = .next s

/-- R291: every accepted command completes; from every state the machine takes a step, it never stops. That it has no
fault and no refusal is read from the spec by inference (notes/assumptions/14.md, DEDUCED); that a state with nothing
pending has a next state at all is THE MODEL'S CHOICE (notes/assumptions/3.md). -/
def Obligations.StepNeverStops : Prop := ∀ s : State, ∃ t, step s = .next t

/-! ### Invariants -/

/-- R37: the six invariants hold right after reset, and so does the one of EXH. -/
def Obligations.ResetSatisfiesInvariants : Prop := State.reset.Inv ∧ State.reset.ExhInv

/-- R37: every step keeps the six invariants of a reachable state, from every state that has them. -/
def Obligations.StepKeepsInvariants : Prop := ∀ s t : State, s.Inv → step s = .next t → t.Inv

/-- R174, R175: every step keeps EXH to a live stream at a block boundary whose counter is back at its start. -/
def Obligations.StepKeepsExhaustion : Prop := ∀ s t : State, s.ExhInv → step s = .next t → t.ExhInv

/-- R34: no step, a reset's included, removes or rewrites a byte already emitted. -/
def Obligations.OutputOnlyGrows : Prop := ∀ s t : State, step s = .next t → ∃ emitted, t.out = s.out ++ emitted

/-- R71, R104, R121: a step makes at most one entropy request, and makes one only for an ENCSTART outside the error
state that finds no session open and a key of 32 bytes. -/
def Obligations.EntropyOnlyForEncstart : Prop :=
  ∀ s t : State, step s = .next t →
    (t.draws = s.draws ∧ t.entropy = s.entropy) ∨
    (t.draws = s.draws + 1 ∧ t.entropy = s.entropy.tail ∧ s.errcode = none ∧ s.phase = .idle ∧ s.keylen = 32 ∧
      ∃ rest, s.pending = .command 0x20000000 :: rest)

/-- R7, R121: an answer that the environment has fixed is the one the next request gets, 16 bytes or FAIL. That the
answers stand in a list of the state is THE MODEL'S CHOICE (notes/assumptions/5.md). -/
def Obligations.EntropyAnswersInOrder : Prop :=
  ∀ (s : State) (a : EntropyAnswer) (rest : List EntropyAnswer), s.entropy = a :: rest →
    nextAnswer s = a ∧ (takeAnswer s).entropy = rest

/-- R24, R25, R103, R288: while a session stays open no step changes its key or its direction, and none changes the IV
of a live stream, whatever happens to KEYBUF. -/
def Obligations.SessionKeepsItsKeyAndIv : Prop :=
  ∀ s t : State, step s = .next t → s.phase ≠ .idle → t.phase ≠ .idle →
    t.skey = s.skey ∧ t.dir = s.dir ∧ (s.phase = .stream → t.phase = .stream ∧ t.iv = s.iv ∧ t.ivlen = s.ivlen)

/-! ### What the keys reach -/

/-- R44: no register read depends on KEYBUF or SKEY, and a step that is no DATA command leads two states that differ in
the keys only to two states that differ in the keys only: same output, same registers, same everything else. -/
def Obligations.KeysReachOnlyTheData : Prop :=
  (∀ (s t : State) (a : BitVec 4), SameButKeys s t → readReg s a = readReg t a) ∧
  (∀ s t s' : State, SameButKeys s t →
    (∀ w rest i, s.pending = .command w :: rest → decode w = .ok i → dataBytes i = none) →
    step s = .next s' → ∃ t', step t = .next t' ∧ SameButKeys s' t')

/-- R184, R261: a wrong key is not an error: two states that differ in the keys and in the values of the bytes on OUT
step to two states that differ in no more: the same status, the same counter, as many bytes emitted. -/
def Obligations.WrongKeyChangesOnlyBytes : Prop :=
  ∀ s t s' : State, SameButKeysAndOutput s t → step s = .next s' → ∃ t', step t = .next t' ∧ SameButKeysAndOutput s' t'

/-! ### Errors -/

/-- R251: what every error does: the code is latched, the session ended and zeroed; KEYBUF, KEYLEN, DROPPED and OUT are
kept. -/
def Obligations.RaiseLatchesAndClears : Prop :=
  ∀ (e : EngineError) (s : State), raise e s = { s with
    errcode := some e, phase := .idle, dir := .encrypt, skey := Bytes.zero 32, iv := Bytes.zero 16, ivlen := 0, ctr := 0,
    offset := 0, exh := false }

/-! ### System commands (spec/45_system_commands.md) -/

/-- R230: NOP changes no field in any state, its word is 0x00000000, and every other word with its opcode is illegal. -/
def Obligations.NopChangesNothing : Prop :=
  (∀ s : State, exec .nop s = .next s) ∧ decode 0x00000000 = .ok .nop ∧
  ∀ w : Word, opcodeOf w = 0x00 → w ≠ 0x00000000 → decode w = .error (.reservedBits 0x00)

/-- R231: ERRCLR clears ERRCODE and DROPPED and nothing else, in and out of the error state, and `err` falls; in a
reachable state outside the error state it changes nothing, and from a reachable error state it leads to IDLE. -/
def Obligations.ErrclrEffect : Prop :=
  (∀ s : State, ∃ t, exec .errclr s = .next t ∧ t = { s with errcode := none, dropped := false } ∧
    errOutput t = false) ∧
  decode 0x01000000 = .ok .errclr ∧
  (∀ s : State, s.Inv → s.errcode = none → exec .errclr s = .next s) ∧
  ∀ s t : State, s.Inv → s.errcode ≠ none → exec .errclr s = .next t → t.phase = .idle

/-! ### Key commands (spec/40_key_validator.md) -/

/-- R101: KCLR empties the key buffer, in every phase, and touches nothing else; in the error state it is dropped. -/
def Obligations.KclrEffect : Prop :=
  (∀ s : State, s.errcode = none → exec .kclr s = .next { s with keybuf := Bytes.zero 32, keylen := 0 }) ∧
  (∀ s : State, s.errcode ≠ none → exec .kclr s = .next { s with dropped := true }) ∧
  decode 0x10000000 = .ok .kclr

/-- R102: KBYTE counts the byte up to 63 and stores it at index KEYLEN if that is below 32, in every phase, and touches
nothing else; in the error state it is dropped. -/
def Obligations.KbyteEffect : Prop :=
  (∀ (b : Byte) (s : State), s.errcode = none → ∃ t, exec (.kbyte b) s = .next t ∧
    t = { s with keybuf := t.keybuf, keylen := t.keylen } ∧
    t.keylen.toNat = min (s.keylen.toNat + 1) 63 ∧
    ∀ i : Fin 32, t.keybuf[i] = if i.val = s.keylen.toNat then b else s.keybuf[i]) ∧
  (∀ (b : Byte) (s : State), s.errcode ≠ none → exec (.kbyte b) s = .next { s with dropped := true }) ∧
  (∀ b : Byte, decode (0x11000000 ||| b.setWidth 32) = .ok (.kbyte b))

/-- R22, R23, R90: KEY with n bytes leaves KEYLEN at `min(n, 63)` and the first 32 bytes, zeros after them, in the key
buffer, and touches nothing else. -/
def Obligations.KeyLineLoadsTheKey : Prop :=
  ∀ (ks : List Byte) (s : State), s.errcode = none →
    runCommands (keyCommands ks) s =
      .next { s with keybuf := loadedKey ks, keylen := BitVec.ofNat 6 (min ks.length 63) }

/-! ### Session commands (spec/44_envelope_session.md) -/

/-- R201: ENCSTART with no session open, 32 key bytes and an entropy answer `v` uses up one answer, emits the IV, latches
the key and starts the stream. -/
def Obligations.EncstartOpensSession : Prop :=
  ∀ (s : State) (v : Block), s.errcode = none → s.phase = .idle → s.keylen = 32 → nextAnswer s = .bytes v →
    exec .encstart s = .next { s with
      entropy := s.entropy.tail, draws := s.draws + 1, iv := v, ivlen := 16, out := s.out ++ v.toList, skey := s.keybuf,
      dir := .encrypt, ctr := be64 (slice v 8 8), offset := 0, exh := false, phase := .stream }

/-- R201, R253: ENCSTART's errors in their order: SessionActive before the key is looked at, InvalidKeyLength before any
draw, EntropyFailure after one draw; in the error state it is dropped. -/
def Obligations.EncstartErrors : Prop :=
  ∀ s : State,
    (s.errcode = none → s.phase ≠ .idle → exec .encstart s = .next (raise .sessionActive s)) ∧
    (s.errcode = none → s.phase = .idle → s.keylen ≠ 32 → exec .encstart s = .next (raise .invalidKeyLength s)) ∧
    (s.errcode = none → s.phase = .idle → s.keylen = 32 → nextAnswer s = .fail →
      exec .encstart s =
        .next (raise .entropyFailure { s with entropy := s.entropy.tail, draws := s.draws + 1 })) ∧
    (s.errcode ≠ none → exec .encstart s = .next { s with dropped := true })

/-- R202: DECSTART with no session open and 32 key bytes latches the key and waits for 16 IV bytes; it neither draws nor
emits. -/
def Obligations.DecstartOpensSession : Prop :=
  ∀ s : State, s.errcode = none → s.phase = .idle → s.keylen = 32 →
    exec .decstart s = .next { s with
      skey := s.keybuf, iv := Bytes.zero 16, ivlen := 0, ctr := 0, offset := 0, exh := false, dir := .decrypt,
      phase := .ivParse }

/-- R202, R253: DECSTART's errors in their order: SessionActive before the key is looked at, then InvalidKeyLength; in
the error state it is dropped. -/
def Obligations.DecstartErrors : Prop :=
  ∀ s : State,
    (s.errcode = none → s.phase ≠ .idle → exec .decstart s = .next (raise .sessionActive s)) ∧
    (s.errcode = none → s.phase = .idle → s.keylen ≠ 32 → exec .decstart s = .next (raise .invalidKeyLength s)) ∧
    (s.errcode ≠ none → exec .decstart s = .next { s with dropped := true })

/-- R203, R205: END in STREAM ends the session: every session field is 0, and KEYBUF, KEYLEN, ERRCODE, DROPPED and OUT
stay. -/
def Obligations.EndClosesStream : Prop :=
  ∀ s : State, s.errcode = none → s.phase = .stream →
    exec .endSession s = .next { s with
      phase := .idle, dir := .encrypt, skey := Bytes.zero 32, iv := Bytes.zero 16, ivlen := 0, ctr := 0, offset := 0,
      exh := false }

/-- R203, R124: END in IDLE raises NoSession, END in IV_PARSE raises TruncatedEnvelope; in the error state END is
dropped. -/
def Obligations.EndErrors : Prop :=
  ∀ s : State,
    (s.errcode = none → s.phase = .idle → exec .endSession s = .next (raise .noSession s)) ∧
    (s.errcode = none → s.phase = .ivParse → exec .endSession s = .next (raise .truncatedEnvelope s)) ∧
    (s.errcode ≠ none → exec .endSession s = .next { s with dropped := true })

/-- R204, R205: ABORT clears the session in any phase, with no error; in a reachable IDLE state it changes nothing; in
the error state it is dropped. -/
def Obligations.AbortEffect : Prop :=
  (∀ s : State, s.errcode = none → exec .abort s = .next { s with
    phase := .idle, dir := .encrypt, skey := Bytes.zero 32, iv := Bytes.zero 16, ivlen := 0, ctr := 0, offset := 0,
    exh := false }) ∧
  (∀ s : State, s.Inv → s.errcode = none → s.phase = .idle → exec .abort s = .next s) ∧
  (∀ s : State, s.errcode ≠ none → exec .abort s = .next { s with dropped := true }) ∧
  decode 0x23000000 = .ok .abort

/-! ### DATA commands (spec/41_iv_codec.md, spec/43_ctr_pipeline.md) -/

/-- R170–R179: a DATA command in STREAM that meets no exhaustion before its last byte emits each byte XORed with the
keystream byte of its position, and moves OFFSET and CTR on by as many bytes; EXH is set when the counter is back at
CTR0. -/
def Obligations.DataInStream : Prop :=
  ∀ (i : Instr) (bs : List Byte) (s : State), dataBytes i = some bs → s.errcode = none → s.phase = .stream →
    s.exh = false → (s.offset.toNat + bs.length ≤ 16 ∨ s.ctr + 1 ≠ ctr0 s) →
    exec i s = .next { s with
      out := s.out ++ bs.mapIdx fun j b => b ^^^ keystreamAhead s j,
      ctr := s.ctr + BitVec.ofNat 64 ((s.offset.toNat + bs.length) / 16),
      offset := s.offset + BitVec.ofNat 4 bs.length,
      exh := decide (16 ≤ s.offset.toNat + bs.length ∧ s.ctr + 1 = ctr0 s) }

/-- R122, R176: a DATA command in IV_PARSE that does not bring the 16th IV byte stores its bytes at IVLEN, IVLEN + 1, ..
and emits nothing. -/
def Obligations.DataFillsIv : Prop :=
  ∀ (i : Instr) (bs : List Byte) (s : State), dataBytes i = some bs → s.errcode = none → s.phase = .ivParse →
    s.ivlen.toNat + bs.length ≤ 15 → ∃ t, exec i s = .next t ∧
    t = { s with iv := t.iv, ivlen := t.ivlen } ∧ t.ivlen.toNat = s.ivlen.toNat + bs.length ∧
    ∀ k : Fin 16, t.iv[k] =
      if k.val < s.ivlen.toNat ∨ s.ivlen.toNat + bs.length ≤ k.val then s.iv[k] else bs.getD (k.val - s.ivlen.toNat) 0

/-- R122, R123: the 16th IV byte completes the IV and starts the stream at CTR0, and emits nothing. -/
def Obligations.SixteenthIvByteStartsStream : Prop :=
  ∀ (b : Byte) (s : State), s.errcode = none → s.phase = .ivParse → s.ivlen = 15 → ∃ t, exec (.data1 b) s = .next t ∧
    t = { s with iv := t.iv, ivlen := 16, ctr := be64 (slice t.iv 8 8), offset := 0, exh := false, phase := .stream } ∧
    ∀ k : Fin 16, t.iv[k] = if k.val = 15 then b else s.iv[k]

/-- R176, R254: DATA2 and DATA3 are DATA1 on their first byte and, if that raised nothing, the rest; if it raised, its
effects stand and the rest is not processed. -/
def Obligations.DataCommandGoesByteByByte : Prop :=
  ∀ (d0 d1 d2 : Byte) (s t : State), s.errcode = none → s.phase ≠ .idle → exec (.data1 d0) s = .next t →
    (t.errcode = none → exec (.data2 d0 d1) s = exec (.data1 d1) t ∧ exec (.data3 d0 d1 d2) s = exec (.data2 d1 d2) t) ∧
    (t.errcode ≠ none → exec (.data2 d0 d1) s = .next t ∧ exec (.data3 d0 d1 d2) s = .next t)

/-- R177–R179: a DATA command in IDLE raises NoSession before any byte; in the error state it is dropped. -/
def Obligations.DataWithoutSession : Prop :=
  ∀ (i : Instr) (bs : List Byte) (s : State), dataBytes i = some bs →
    (s.errcode = none → s.phase = .idle → exec i s = .next (raise .noSession s)) ∧
    (s.errcode ≠ none → exec i s = .next { s with dropped := true })

/-- R175: a data byte in STREAM with EXH = 1 is not transformed: the command raises KeystreamExhausted and emits
nothing. -/
def Obligations.ExhaustedStreamRaises : Prop :=
  ∀ (i : Instr) (bs : List Byte) (s : State), dataBytes i = some bs → s.errcode = none → s.phase = .stream →
    s.exh = true → exec i s = .next (raise .keystreamExhausted s)

/-- R180: every split of a byte string into DATA commands leads an open session, IV bytes included, to the same state
and the same output, if no command of the one split raises. -/
def Obligations.ChunkInvariance : Prop :=
  ∀ (cs ds : List Instr) (bs : List Byte) (s t : State), dataStream cs = some bs → dataStream ds = some bs →
    s.phase ≠ .idle → runCommands cs s = .next t → t.errcode = none → runCommands ds s = .next t

/-- R181, R183: the closed form of a stream of up to 2^68 bytes from its start, in any split: byte `i` is XORed with
keystream byte `i`, one byte out for each byte in, the counter one on for every 16, and EXH set at 2^68 bytes. -/
def Obligations.StreamClosedForm : Prop :=
  ∀ (cs : List Instr) (bs : List Byte) (s : State), dataStream cs = some bs → bs.length ≤ 2 ^ 68 → s.errcode = none →
    s.phase = .stream → s.ctr = ctr0 s → s.offset = 0 → s.exh = false →
    runCommands cs s = .next { s with
      out := s.out ++ xorStream s.skey s.iv bs,
      ctr := ctr0 s + BitVec.ofNat 64 (bs.length / 16),
      offset := BitVec.ofNat 4 bs.length,
      exh := decide (bs.length = 2 ^ 68) }

/-- R182: what a stream emitted, transformed by a second stream that starts with the same key and IV, gives back the
bytes the first was fed, whatever else differs between the two. -/
def Obligations.StreamInvolution : Prop :=
  ∀ (cs ds : List Instr) (p c : List Byte) (s t s' : State), dataStream cs = some p → dataStream ds = some c →
    p.length ≤ 2 ^ 68 →
    s.errcode = none → s.phase = .stream → s.ctr = ctr0 s → s.offset = 0 → s.exh = false →
    t.errcode = none → t.phase = .stream → t.ctr = ctr0 t → t.offset = 0 → t.exh = false →
    t.skey = s.skey → t.iv = s.iv → runCommands cs s = .next s' → s'.out = s.out ++ c →
    ∃ t', runCommands ds t = .next t' ∧ t'.out = t.out ++ p

/-- R185: two streams that start with the same key and IV use the same keystream: position by position, the XOR of their
outputs is the XOR of their inputs. -/
def Obligations.KeystreamReuse : Prop :=
  ∀ (cs ds : List Instr) (p q c d : List Byte) (s t s' t' : State), dataStream cs = some p → dataStream ds = some q →
    p.length ≤ 2 ^ 68 → q.length ≤ 2 ^ 68 →
    s.errcode = none → s.phase = .stream → s.ctr = ctr0 s → s.offset = 0 → s.exh = false →
    t.errcode = none → t.phase = .stream → t.ctr = ctr0 t → t.offset = 0 → t.exh = false →
    t.skey = s.skey → t.iv = s.iv → runCommands cs s = .next s' → s'.out = s.out ++ c → runCommands ds t = .next t' →
    t'.out = t.out ++ d → List.zipWith (· ^^^ ·) c d = List.zipWith (· ^^^ ·) p q

/-- R125: an encrypt session that draws the IV `v` and a decrypt session that receives `v` as its first 16 data bytes,
in any split, both enter STREAM with the same nonce, `CTR = CTR0` and offset 0. -/
def Obligations.BothDirectionsDeriveTheHandle : Prop :=
  ∀ (v : Block) (cs : List Instr) (s t : State), dataStream cs = some v.toList →
    s.errcode = none → s.phase = .idle → s.keylen = 32 → nextAnswer s = .bytes v →
    t.errcode = none → t.phase = .ivParse → t.ivlen = 0 →
    ∃ s' t', exec .encstart s = .next s' ∧ runCommands cs t = .next t' ∧ s'.phase = .stream ∧ t'.phase = .stream ∧
      nonce s' = nonce t' ∧ s'.ctr = ctr0 s' ∧ t'.ctr = ctr0 t' ∧ ctr0 s' = ctr0 t' ∧ s'.offset = 0 ∧ t'.offset = 0

/-- R206, within R181's bound: KEY, ENCSTART, any split of the plaintext, END emits the envelope and ends in IDLE with
the key still loaded and no error. -/
def Obligations.EncryptSequence : Prop :=
  ∀ (k : Key) (v : Block) (cs : List Instr) (p : List Byte) (s : State), dataStream cs = some p → p.length ≤ 2 ^ 68 →
    s.errcode = none → s.phase = .idle → nextAnswer s = .bytes v →
    runCommands (keyCommands k.toList ++ .encstart :: cs ++ [.endSession]) s = .next { s with
      keybuf := k, keylen := 32, out := s.out ++ v.toList ++ xorStream k v p,
      entropy := s.entropy.tail, draws := s.draws + 1,
      skey := Bytes.zero 32, iv := Bytes.zero 16, ivlen := 0, ctr := 0, offset := 0, exh := false, dir := .encrypt }

/-- R207, within R181's bound: KEY, DECSTART, any split of an envelope, END emits the plaintext and ends in IDLE with no
error; an envelope of fewer than 16 bytes emits nothing and END raises TruncatedEnvelope. -/
def Obligations.DecryptSequence : Prop :=
  ∀ (k : Key) (cs : List Instr) (s : State), s.errcode = none → s.phase = .idle →
    (∀ (v : Block) (c : List Byte), dataStream cs = some (v.toList ++ c) → c.length ≤ 2 ^ 68 →
      runCommands (keyCommands k.toList ++ .decstart :: cs ++ [.endSession]) s = .next { s with
        keybuf := k, keylen := 32, out := s.out ++ xorStream k v c,
        skey := Bytes.zero 32, iv := Bytes.zero 16, ivlen := 0, ctr := 0, offset := 0, exh := false, dir := .encrypt }) ∧
    (∀ e : List Byte, dataStream cs = some e → e.length < 16 →
      runCommands (keyCommands k.toList ++ .decstart :: cs ++ [.endSession]) s = .next { s with
        keybuf := k, keylen := 32, errcode := some .truncatedEnvelope,
        skey := Bytes.zero 32, iv := Bytes.zero 16, ivlen := 0, ctr := 0, offset := 0, exh := false, dir := .encrypt })

/-- R208, within R181's bound: what an encrypt session emits, fed in any split to a decrypt session with the same key,
emits exactly the plaintext. -/
def Obligations.EnvelopeRoundTrip : Prop :=
  ∀ (k : Key) (cs ds : List Instr) (p e : List Byte) (v : Block) (s t s' : State), dataStream cs = some p →
    p.length ≤ 2 ^ 68 → dataStream ds = some e →
    s.errcode = none → s.phase = .idle → nextAnswer s = .bytes v → t.errcode = none → t.phase = .idle →
    runCommands (keyCommands k.toList ++ .encstart :: cs ++ [.endSession]) s = .next s' → s'.out = s.out ++ e →
    ∃ t', runCommands (keyCommands k.toList ++ .decstart :: ds ++ [.endSession]) t = .next t' ∧
      t'.out = t.out ++ p ∧ t'.errcode = none ∧ t'.phase = .idle

/-! ### Registers (spec/10_state.md) -/

/-- R39, R43, R255: each field of STATUS shows its element, bit 9 is the `err` output, and bits [31:25] read 0; right
after reset STATUS reads 0. The codes shown are the numbers of R30, R31 and R250. -/
def Obligations.StatusFields : Prop :=
  readReg State.reset 0 = 0 ∧
  (phaseCode .idle = 0 ∧ phaseCode .ivParse = 1 ∧ phaseCode .stream = 2) ∧
  (dirCode .encrypt = 0 ∧ dirCode .decrypt = 1) ∧
  (errcodeBits none = 0 ∧ errcodeBits (some .invalidKeyLength) = 1 ∧ errcodeBits (some .truncatedEnvelope) = 2 ∧
    errcodeBits (some .illegalCommand) = 3 ∧ errcodeBits (some .noSession) = 4 ∧
    errcodeBits (some .sessionActive) = 5 ∧ errcodeBits (some .keystreamExhausted) = 6 ∧
    errcodeBits (some .entropyFailure) = 7) ∧
  ∀ s : State,
    (readReg s 0).extractLsb' 0 2 = phaseCode s.phase ∧ (readReg s 0).extractLsb' 2 1 = dirCode s.dir ∧
    (readReg s 0).getLsbD 3 = s.exh ∧ (readReg s 0).extractLsb' 4 4 = errcodeBits s.errcode ∧
    (readReg s 0).getLsbD 8 = s.dropped ∧ (readReg s 0).getLsbD 9 = errOutput s ∧
    (errOutput s = true ↔ errcodeBits s.errcode ≠ 0) ∧
    (readReg s 0).extractLsb' 10 6 = s.keylen ∧ (readReg s 0).extractLsb' 16 4 = s.offset ∧
    (readReg s 0).extractLsb' 20 5 = s.ivlen ∧ (readReg s 0).extractLsb' 25 7 = 0

/-- R40–R43: the counter pair shows CTR, the nonce pair `BE64(NONCE)`, the IV counter pair CTR0, and addresses 0x7 to
0xF, and bits [31:25] of STATUS, read 0; right after reset every register reads 0. -/
def Obligations.RegisterMap : Prop :=
  (∀ a, readReg State.reset a = 0) ∧ ∀ s : State,
    (readReg s 1).toNat * 2 ^ 32 + (readReg s 2).toNat = s.ctr.toNat ∧
    (readReg s 3).toNat * 2 ^ 32 + (readReg s 4).toNat = (be64 (nonce s)).toNat ∧
    (readReg s 5).toNat * 2 ^ 32 + (readReg s 6).toNat = (ctr0 s).toNat ∧
    (∀ a : BitVec 4, 7 ≤ a.toNat → readReg s a = 0) ∧ (readReg s 0).extractLsb' 25 7 = 0

/-- R11: BE64 and BE32 are the big-endian sums, and BE64bytes is the inverse of BE64 both ways. -/
def Obligations.BigEndianValues : Prop :=
  (∀ b : Bytes 8, (be64 b).toNat = b[0].toNat * 2 ^ 56 + b[1].toNat * 2 ^ 48 + b[2].toNat * 2 ^ 40 + b[3].toNat * 2 ^ 32 +
    b[4].toNat * 2 ^ 24 + b[5].toNat * 2 ^ 16 + b[6].toNat * 2 ^ 8 + b[7].toNat) ∧
  (∀ b : Bytes 4, (be32 b).toNat = b[0].toNat * 2 ^ 24 + b[1].toNat * 2 ^ 16 + b[2].toNat * 2 ^ 8 + b[3].toNat) ∧
  (∀ v : BitVec 64, be64 (be64Bytes v) = v) ∧ ∀ b : Bytes 8, be64Bytes (be64 b) = b

/-- R65, R170: the counter block is the nonce in bytes 0..7 and the counter, its most significant byte first, in bytes
8..15. -/
def Obligations.CounterBlockLayout : Prop :=
  ∀ (s : State) (i : Fin 16),
    (i.val < 8 → (counterBlock s)[i] = s.iv[i]) ∧
    (8 ≤ i.val → (counterBlock s)[i].toNat = s.ctr.toNat / 2 ^ (8 * (15 - i.val)) % 256)

/-! ### AES-256 (spec/42_aes256_block.md) -/

/-- R142: multiplication is that of polynomials modulo `x^8 + x^4 + x^3 + x + 1`, said over numbers and without the
model's own steps; `xtime` doubles and reduces by 0x11B, and is multiplication by 0x02, and `times3` by 0x03. -/
def Obligations.FieldMultiples : Prop :=
  (∀ a b : Byte, (gmul a b).toNat = polyReduce 7 (polyProduct a.toNat b.toNat 8)) ∧
  ∀ a : Byte,
    (xtime a).toNat = (if a.toNat < 128 then 2 * a.toNat else (2 * a.toNat) ^^^ 0x11B) ∧
    xtime a = gmul a 0x02 ∧ times3 a = gmul a 0x03 ∧ times3 a = xtime a ^^^ a ∧ gmul a 0x01 = a

/-- R143: the S-box table and the formula agree on all 256 inputs: SBOX(a) is the inverse of `a` in GF(2^8) (0 for 0)
XORed with its four rotations and 0x63. -/
def Obligations.SboxTableIsTheFormula : Prop :=
  (∀ a : Byte, sbox a = gfInverse a ^^^ (gfInverse a).rotateLeft 1 ^^^ (gfInverse a).rotateLeft 2 ^^^
    (gfInverse a).rotateLeft 3 ^^^ (gfInverse a).rotateLeft 4 ^^^ 0x63) ∧
  gfInverse 0 = 0 ∧ ∀ a : Byte, a ≠ 0 → gmul a (gfInverse a) = 1

/-- R141, R144–R147: cell `(r, c)` is byte `r + 4c`, and the four round transformations, cell by cell. -/
def Obligations.RoundTransformations : Prop :=
  ∀ (s : AesState) (w : List KeyWord) (rd : Nat) (r c : Fin 4),
    s.cell r c = s[r.val + 4 * c.val] ∧
    (subBytes s).cell r c = sbox (s.cell r c) ∧
    (shiftRows s).cell r c = s.cell r (c + r) ∧
    (mixColumns s).cell r c = gmul (s.cell r c) 0x02 ^^^ gmul (s.cell (r + 1) c) 0x03 ^^^ s.cell (r + 2) c ^^^
      s.cell (r + 3) c ∧
    (addRoundKey w rd s).cell r c = s.cell r c ^^^ (w.getD (4 * rd + c.val) (Bytes.zero 4))[r]

/-- R141, R150: the cipher adds round key 0 to the block laid out column by column, takes the full rounds 1 to 13 in
order, and then round 14, which has no MixColumns; the result is read out column by column. -/
def Obligations.CipherRounds : Prop :=
  ∀ (k : Key) (b : Block), ∃ st : Nat → AesState,
    (∀ r c : Fin 4, (st 0).cell r c = b[r.val + 4 * c.val] ^^^ ((keyExpansion k).getD c.val (Bytes.zero 4))[r]) ∧
    (∀ rd, 1 ≤ rd → rd ≤ 13 →
      st rd = addRoundKey (keyExpansion k) rd (mixColumns (shiftRows (subBytes (st (rd - 1)))))) ∧
    ∀ r c : Fin 4, (aes256Encrypt k b)[r.val + 4 * c.val] =
      (shiftRows (subBytes (st 13))).cell r c ^^^ ((keyExpansion k).getD (4 * 14 + c.val) (Bytes.zero 4))[r]

/-- R148: RotWord moves each byte one place up and the first to the end, SubWord applies SBOX to each byte, and Rcon[j]
is RC[j] and three zeros, with RC[1..7] = 01, 02, 04, 08, 10, 20, 40, each `xtime` of the one before; `xorWord` is
exclusive OR byte by byte. -/
def Obligations.KeyWordHelpers : Prop :=
  (∀ t u : KeyWord, rotWord t = #v[t[1], t[2], t[3], t[0]] ∧
    ∀ r : Fin 4, (subWord t)[r] = sbox t[r] ∧ (xorWord t u)[r] = t[r] ^^^ u[r]) ∧
  (∀ j : Nat, rcon j = #v[roundConstant j, 0, 0, 0]) ∧ roundConstant 1 = 0x01 ∧
  (∀ j : Nat, 2 ≤ j → roundConstant j = xtime (roundConstant (j - 1))) ∧
  rcon 1 = #v[0x01, 0, 0, 0] ∧ rcon 2 = #v[0x02, 0, 0, 0] ∧ rcon 3 = #v[0x04, 0, 0, 0] ∧ rcon 4 = #v[0x08, 0, 0, 0] ∧
  rcon 5 = #v[0x10, 0, 0, 0] ∧ rcon 6 = #v[0x20, 0, 0, 0] ∧ rcon 7 = #v[0x40, 0, 0, 0]

/-- R149: the key expansion has 60 words, the first eight are the key, and each later word is `w[i-8]` XORed with the
term that `w[i-1]` gives. -/
def Obligations.KeyExpansionRecurrence : Prop :=
  ∀ k : Key, (keyExpansion k).length = 60 ∧
    (∀ (i : Fin 8) (r : Fin 4), ((keyExpansion k).getD i.val (Bytes.zero 4))[r] = k[4 * i.val + r.val]) ∧
    ∀ i, 8 ≤ i → i < 60 → ∀ t : KeyWord, t = (keyExpansion k).getD (i - 1) (Bytes.zero 4) →
      (keyExpansion k).getD i (Bytes.zero 4) = xorWord ((keyExpansion k).getD (i - 8) (Bytes.zero 4))
        (if i % 8 = 0 then xorWord (subWord (rotWord t)) (rcon (i / 8)) else if i % 8 = 4 then subWord t else t)
end

