-- ==== Sys2Proof/Laws/Aes.lean ====
section
/-! SUPPORT. What the shared operations of the AES core do, said once. -/

namespace Sys2Proof.Machine

/-- The cell of a state given cell by cell (R141). -/
@[simp] theorem aesState_cell (f : Fin 4 → Fin 4 → Byte) (r c : Fin 4) : (aesState f).cell r c = f r c := by
  simp only [AesState.cell, aesState, Vector.getElem_ofFn]
  congr 1 <;> apply Fin.ext <;> simp <;> omega

/-- One more full round is taken after the others, under the next round key (R150). -/
theorem fullRounds_succ (w : List KeyWord) (rd n : Nat) (s : AesState) :
    fullRounds w rd (n + 1) s = addRoundKey w (rd + n) (mixColumns (shiftRows (subBytes (fullRounds w rd n s)))) := by
  induction n generalizing rd s with
  | zero => rfl
  | succ n ih =>
    rw [fullRounds, ih, Nat.add_right_comm rd 1 n]
    rfl

end Sys2Proof.Machine
end

