-- ==== Sys2Proof/Laws/State.lean ====
section
/-! SUPPORT. One lemma for each field of State and each named update: what the update leaves in the field. -/

namespace Sys2Proof.Machine

/-! ### emit -/

@[simp] theorem emit_keybuf (b : Byte) (s : State) : (emit b s).keybuf = s.keybuf := rfl
@[simp] theorem emit_keylen (b : Byte) (s : State) : (emit b s).keylen = s.keylen := rfl
@[simp] theorem emit_skey (b : Byte) (s : State) : (emit b s).skey = s.skey := rfl
@[simp] theorem emit_iv (b : Byte) (s : State) : (emit b s).iv = s.iv := rfl
@[simp] theorem emit_ivlen (b : Byte) (s : State) : (emit b s).ivlen = s.ivlen := rfl
@[simp] theorem emit_ctr (b : Byte) (s : State) : (emit b s).ctr = s.ctr := rfl
@[simp] theorem emit_offset (b : Byte) (s : State) : (emit b s).offset = s.offset := rfl
@[simp] theorem emit_exh (b : Byte) (s : State) : (emit b s).exh = s.exh := rfl
@[simp] theorem emit_phase (b : Byte) (s : State) : (emit b s).phase = s.phase := rfl
@[simp] theorem emit_dir (b : Byte) (s : State) : (emit b s).dir = s.dir := rfl
@[simp] theorem emit_errcode (b : Byte) (s : State) : (emit b s).errcode = s.errcode := rfl
@[simp] theorem emit_dropped (b : Byte) (s : State) : (emit b s).dropped = s.dropped := rfl
@[simp] theorem emit_out (b : Byte) (s : State) : (emit b s).out = s.out ++ [b] := rfl
@[simp] theorem emit_pending (b : Byte) (s : State) : (emit b s).pending = s.pending := rfl
@[simp] theorem emit_readback (b : Byte) (s : State) : (emit b s).readback = s.readback := rfl
@[simp] theorem emit_entropy (b : Byte) (s : State) : (emit b s).entropy = s.entropy := rfl
@[simp] theorem emit_draws (b : Byte) (s : State) : (emit b s).draws = s.draws := rfl

/-! ### emitAll -/

@[simp] theorem emitAll_keybuf (bs : List Byte) (s : State) : (emitAll bs s).keybuf = s.keybuf := rfl
@[simp] theorem emitAll_keylen (bs : List Byte) (s : State) : (emitAll bs s).keylen = s.keylen := rfl
@[simp] theorem emitAll_skey (bs : List Byte) (s : State) : (emitAll bs s).skey = s.skey := rfl
@[simp] theorem emitAll_iv (bs : List Byte) (s : State) : (emitAll bs s).iv = s.iv := rfl
@[simp] theorem emitAll_ivlen (bs : List Byte) (s : State) : (emitAll bs s).ivlen = s.ivlen := rfl
@[simp] theorem emitAll_ctr (bs : List Byte) (s : State) : (emitAll bs s).ctr = s.ctr := rfl
@[simp] theorem emitAll_offset (bs : List Byte) (s : State) : (emitAll bs s).offset = s.offset := rfl
@[simp] theorem emitAll_exh (bs : List Byte) (s : State) : (emitAll bs s).exh = s.exh := rfl
@[simp] theorem emitAll_phase (bs : List Byte) (s : State) : (emitAll bs s).phase = s.phase := rfl
@[simp] theorem emitAll_dir (bs : List Byte) (s : State) : (emitAll bs s).dir = s.dir := rfl
@[simp] theorem emitAll_errcode (bs : List Byte) (s : State) : (emitAll bs s).errcode = s.errcode := rfl
@[simp] theorem emitAll_dropped (bs : List Byte) (s : State) : (emitAll bs s).dropped = s.dropped := rfl
@[simp] theorem emitAll_out (bs : List Byte) (s : State) : (emitAll bs s).out = s.out ++ bs := rfl
@[simp] theorem emitAll_pending (bs : List Byte) (s : State) : (emitAll bs s).pending = s.pending := rfl
@[simp] theorem emitAll_readback (bs : List Byte) (s : State) : (emitAll bs s).readback = s.readback := rfl
@[simp] theorem emitAll_entropy (bs : List Byte) (s : State) : (emitAll bs s).entropy = s.entropy := rfl
@[simp] theorem emitAll_draws (bs : List Byte) (s : State) : (emitAll bs s).draws = s.draws := rfl

/-! ### takeAnswer -/

@[simp] theorem takeAnswer_keybuf (s : State) : (takeAnswer s).keybuf = s.keybuf := rfl
@[simp] theorem takeAnswer_keylen (s : State) : (takeAnswer s).keylen = s.keylen := rfl
@[simp] theorem takeAnswer_skey (s : State) : (takeAnswer s).skey = s.skey := rfl
@[simp] theorem takeAnswer_iv (s : State) : (takeAnswer s).iv = s.iv := rfl
@[simp] theorem takeAnswer_ivlen (s : State) : (takeAnswer s).ivlen = s.ivlen := rfl
@[simp] theorem takeAnswer_ctr (s : State) : (takeAnswer s).ctr = s.ctr := rfl
@[simp] theorem takeAnswer_offset (s : State) : (takeAnswer s).offset = s.offset := rfl
@[simp] theorem takeAnswer_exh (s : State) : (takeAnswer s).exh = s.exh := rfl
@[simp] theorem takeAnswer_phase (s : State) : (takeAnswer s).phase = s.phase := rfl
@[simp] theorem takeAnswer_dir (s : State) : (takeAnswer s).dir = s.dir := rfl
@[simp] theorem takeAnswer_errcode (s : State) : (takeAnswer s).errcode = s.errcode := rfl
@[simp] theorem takeAnswer_dropped (s : State) : (takeAnswer s).dropped = s.dropped := rfl
@[simp] theorem takeAnswer_out (s : State) : (takeAnswer s).out = s.out := rfl
@[simp] theorem takeAnswer_pending (s : State) : (takeAnswer s).pending = s.pending := rfl
@[simp] theorem takeAnswer_readback (s : State) : (takeAnswer s).readback = s.readback := rfl
@[simp] theorem takeAnswer_entropy (s : State) : (takeAnswer s).entropy = s.entropy.tail := rfl
@[simp] theorem takeAnswer_draws (s : State) : (takeAnswer s).draws = s.draws + 1 := rfl

/-! ### clearSession -/

@[simp] theorem clearSession_keybuf (s : State) : (clearSession s).keybuf = s.keybuf := rfl
@[simp] theorem clearSession_keylen (s : State) : (clearSession s).keylen = s.keylen := rfl
@[simp] theorem clearSession_skey (s : State) : (clearSession s).skey = Bytes.zero 32 := rfl
@[simp] theorem clearSession_iv (s : State) : (clearSession s).iv = Bytes.zero 16 := rfl
@[simp] theorem clearSession_ivlen (s : State) : (clearSession s).ivlen = 0 := rfl
@[simp] theorem clearSession_ctr (s : State) : (clearSession s).ctr = 0 := rfl
@[simp] theorem clearSession_offset (s : State) : (clearSession s).offset = 0 := rfl
@[simp] theorem clearSession_exh (s : State) : (clearSession s).exh = false := rfl
@[simp] theorem clearSession_phase (s : State) : (clearSession s).phase = .idle := rfl
@[simp] theorem clearSession_dir (s : State) : (clearSession s).dir = .encrypt := rfl
@[simp] theorem clearSession_errcode (s : State) : (clearSession s).errcode = s.errcode := rfl
@[simp] theorem clearSession_dropped (s : State) : (clearSession s).dropped = s.dropped := rfl
@[simp] theorem clearSession_out (s : State) : (clearSession s).out = s.out := rfl
@[simp] theorem clearSession_pending (s : State) : (clearSession s).pending = s.pending := rfl
@[simp] theorem clearSession_readback (s : State) : (clearSession s).readback = s.readback := rfl
@[simp] theorem clearSession_entropy (s : State) : (clearSession s).entropy = s.entropy := rfl
@[simp] theorem clearSession_draws (s : State) : (clearSession s).draws = s.draws := rfl

/-! ### raise -/

@[simp] theorem raise_keybuf (e : EngineError) (s : State) : (raise e s).keybuf = s.keybuf := rfl
@[simp] theorem raise_keylen (e : EngineError) (s : State) : (raise e s).keylen = s.keylen := rfl
@[simp] theorem raise_skey (e : EngineError) (s : State) : (raise e s).skey = Bytes.zero 32 := rfl
@[simp] theorem raise_iv (e : EngineError) (s : State) : (raise e s).iv = Bytes.zero 16 := rfl
@[simp] theorem raise_ivlen (e : EngineError) (s : State) : (raise e s).ivlen = 0 := rfl
@[simp] theorem raise_ctr (e : EngineError) (s : State) : (raise e s).ctr = 0 := rfl
@[simp] theorem raise_offset (e : EngineError) (s : State) : (raise e s).offset = 0 := rfl
@[simp] theorem raise_exh (e : EngineError) (s : State) : (raise e s).exh = false := rfl
@[simp] theorem raise_phase (e : EngineError) (s : State) : (raise e s).phase = .idle := rfl
@[simp] theorem raise_dir (e : EngineError) (s : State) : (raise e s).dir = .encrypt := rfl
@[simp] theorem raise_errcode (e : EngineError) (s : State) : (raise e s).errcode = some e := rfl
@[simp] theorem raise_dropped (e : EngineError) (s : State) : (raise e s).dropped = s.dropped := rfl
@[simp] theorem raise_out (e : EngineError) (s : State) : (raise e s).out = s.out := rfl
@[simp] theorem raise_pending (e : EngineError) (s : State) : (raise e s).pending = s.pending := rfl
@[simp] theorem raise_readback (e : EngineError) (s : State) : (raise e s).readback = s.readback := rfl
@[simp] theorem raise_entropy (e : EngineError) (s : State) : (raise e s).entropy = s.entropy := rfl
@[simp] theorem raise_draws (e : EngineError) (s : State) : (raise e s).draws = s.draws := rfl

/-! ### dropWord -/

@[simp] theorem dropWord_keybuf (s : State) : (dropWord s).keybuf = s.keybuf := rfl
@[simp] theorem dropWord_keylen (s : State) : (dropWord s).keylen = s.keylen := rfl
@[simp] theorem dropWord_skey (s : State) : (dropWord s).skey = s.skey := rfl
@[simp] theorem dropWord_iv (s : State) : (dropWord s).iv = s.iv := rfl
@[simp] theorem dropWord_ivlen (s : State) : (dropWord s).ivlen = s.ivlen := rfl
@[simp] theorem dropWord_ctr (s : State) : (dropWord s).ctr = s.ctr := rfl
@[simp] theorem dropWord_offset (s : State) : (dropWord s).offset = s.offset := rfl
@[simp] theorem dropWord_exh (s : State) : (dropWord s).exh = s.exh := rfl
@[simp] theorem dropWord_phase (s : State) : (dropWord s).phase = s.phase := rfl
@[simp] theorem dropWord_dir (s : State) : (dropWord s).dir = s.dir := rfl
@[simp] theorem dropWord_errcode (s : State) : (dropWord s).errcode = s.errcode := rfl
@[simp] theorem dropWord_dropped (s : State) : (dropWord s).dropped = true := rfl
@[simp] theorem dropWord_out (s : State) : (dropWord s).out = s.out := rfl
@[simp] theorem dropWord_pending (s : State) : (dropWord s).pending = s.pending := rfl
@[simp] theorem dropWord_readback (s : State) : (dropWord s).readback = s.readback := rfl
@[simp] theorem dropWord_entropy (s : State) : (dropWord s).entropy = s.entropy := rfl
@[simp] theorem dropWord_draws (s : State) : (dropWord s).draws = s.draws := rfl

/-! ### acknowledge -/

@[simp] theorem acknowledge_keybuf (s : State) : (acknowledge s).keybuf = s.keybuf := rfl
@[simp] theorem acknowledge_keylen (s : State) : (acknowledge s).keylen = s.keylen := rfl
@[simp] theorem acknowledge_skey (s : State) : (acknowledge s).skey = s.skey := rfl
@[simp] theorem acknowledge_iv (s : State) : (acknowledge s).iv = s.iv := rfl
@[simp] theorem acknowledge_ivlen (s : State) : (acknowledge s).ivlen = s.ivlen := rfl
@[simp] theorem acknowledge_ctr (s : State) : (acknowledge s).ctr = s.ctr := rfl
@[simp] theorem acknowledge_offset (s : State) : (acknowledge s).offset = s.offset := rfl
@[simp] theorem acknowledge_exh (s : State) : (acknowledge s).exh = s.exh := rfl
@[simp] theorem acknowledge_phase (s : State) : (acknowledge s).phase = s.phase := rfl
@[simp] theorem acknowledge_dir (s : State) : (acknowledge s).dir = s.dir := rfl
@[simp] theorem acknowledge_errcode (s : State) : (acknowledge s).errcode = none := rfl
@[simp] theorem acknowledge_dropped (s : State) : (acknowledge s).dropped = false := rfl
@[simp] theorem acknowledge_out (s : State) : (acknowledge s).out = s.out := rfl
@[simp] theorem acknowledge_pending (s : State) : (acknowledge s).pending = s.pending := rfl
@[simp] theorem acknowledge_readback (s : State) : (acknowledge s).readback = s.readback := rfl
@[simp] theorem acknowledge_entropy (s : State) : (acknowledge s).entropy = s.entropy := rfl
@[simp] theorem acknowledge_draws (s : State) : (acknowledge s).draws = s.draws := rfl

/-! ### resetState -/

@[simp] theorem resetState_keybuf (s : State) : (resetState s).keybuf = Bytes.zero 32 := rfl
@[simp] theorem resetState_keylen (s : State) : (resetState s).keylen = 0 := rfl
@[simp] theorem resetState_skey (s : State) : (resetState s).skey = Bytes.zero 32 := rfl
@[simp] theorem resetState_iv (s : State) : (resetState s).iv = Bytes.zero 16 := rfl
@[simp] theorem resetState_ivlen (s : State) : (resetState s).ivlen = 0 := rfl
@[simp] theorem resetState_ctr (s : State) : (resetState s).ctr = 0 := rfl
@[simp] theorem resetState_offset (s : State) : (resetState s).offset = 0 := rfl
@[simp] theorem resetState_exh (s : State) : (resetState s).exh = false := rfl
@[simp] theorem resetState_phase (s : State) : (resetState s).phase = .idle := rfl
@[simp] theorem resetState_dir (s : State) : (resetState s).dir = .encrypt := rfl
@[simp] theorem resetState_errcode (s : State) : (resetState s).errcode = none := rfl
@[simp] theorem resetState_dropped (s : State) : (resetState s).dropped = false := rfl
@[simp] theorem resetState_out (s : State) : (resetState s).out = s.out := rfl
@[simp] theorem resetState_pending (s : State) : (resetState s).pending = s.pending := rfl
@[simp] theorem resetState_readback (s : State) : (resetState s).readback = s.readback := rfl
@[simp] theorem resetState_entropy (s : State) : (resetState s).entropy = s.entropy := rfl
@[simp] theorem resetState_draws (s : State) : (resetState s).draws = s.draws := rfl

/-! ### latchKey -/

@[simp] theorem latchKey_keybuf (s : State) : (latchKey s).keybuf = s.keybuf := rfl
@[simp] theorem latchKey_keylen (s : State) : (latchKey s).keylen = s.keylen := rfl
@[simp] theorem latchKey_skey (s : State) : (latchKey s).skey = s.keybuf := rfl
@[simp] theorem latchKey_iv (s : State) : (latchKey s).iv = s.iv := rfl
@[simp] theorem latchKey_ivlen (s : State) : (latchKey s).ivlen = s.ivlen := rfl
@[simp] theorem latchKey_ctr (s : State) : (latchKey s).ctr = s.ctr := rfl
@[simp] theorem latchKey_offset (s : State) : (latchKey s).offset = s.offset := rfl
@[simp] theorem latchKey_exh (s : State) : (latchKey s).exh = s.exh := rfl
@[simp] theorem latchKey_phase (s : State) : (latchKey s).phase = s.phase := rfl
@[simp] theorem latchKey_dir (s : State) : (latchKey s).dir = s.dir := rfl
@[simp] theorem latchKey_errcode (s : State) : (latchKey s).errcode = s.errcode := rfl
@[simp] theorem latchKey_dropped (s : State) : (latchKey s).dropped = s.dropped := rfl
@[simp] theorem latchKey_out (s : State) : (latchKey s).out = s.out := rfl
@[simp] theorem latchKey_pending (s : State) : (latchKey s).pending = s.pending := rfl
@[simp] theorem latchKey_readback (s : State) : (latchKey s).readback = s.readback := rfl
@[simp] theorem latchKey_entropy (s : State) : (latchKey s).entropy = s.entropy := rfl
@[simp] theorem latchKey_draws (s : State) : (latchKey s).draws = s.draws := rfl

/-! ### clearKey -/

@[simp] theorem clearKey_keybuf (s : State) : (clearKey s).keybuf = Bytes.zero 32 := rfl
@[simp] theorem clearKey_keylen (s : State) : (clearKey s).keylen = 0 := rfl
@[simp] theorem clearKey_skey (s : State) : (clearKey s).skey = s.skey := rfl
@[simp] theorem clearKey_iv (s : State) : (clearKey s).iv = s.iv := rfl
@[simp] theorem clearKey_ivlen (s : State) : (clearKey s).ivlen = s.ivlen := rfl
@[simp] theorem clearKey_ctr (s : State) : (clearKey s).ctr = s.ctr := rfl
@[simp] theorem clearKey_offset (s : State) : (clearKey s).offset = s.offset := rfl
@[simp] theorem clearKey_exh (s : State) : (clearKey s).exh = s.exh := rfl
@[simp] theorem clearKey_phase (s : State) : (clearKey s).phase = s.phase := rfl
@[simp] theorem clearKey_dir (s : State) : (clearKey s).dir = s.dir := rfl
@[simp] theorem clearKey_errcode (s : State) : (clearKey s).errcode = s.errcode := rfl
@[simp] theorem clearKey_dropped (s : State) : (clearKey s).dropped = s.dropped := rfl
@[simp] theorem clearKey_out (s : State) : (clearKey s).out = s.out := rfl
@[simp] theorem clearKey_pending (s : State) : (clearKey s).pending = s.pending := rfl
@[simp] theorem clearKey_readback (s : State) : (clearKey s).readback = s.readback := rfl
@[simp] theorem clearKey_entropy (s : State) : (clearKey s).entropy = s.entropy := rfl
@[simp] theorem clearKey_draws (s : State) : (clearKey s).draws = s.draws := rfl

/-! ### appendKeyByte -/

@[simp] theorem appendKeyByte_keybuf (b : Byte) (s : State) :
    (appendKeyByte b s).keybuf = if s.keylen.toNat < 32 then s.keybuf.setIfInBounds s.keylen.toNat b else s.keybuf := rfl
@[simp] theorem appendKeyByte_keylen (b : Byte) (s : State) : (appendKeyByte b s).keylen = bumpKeylen s.keylen := rfl
@[simp] theorem appendKeyByte_skey (b : Byte) (s : State) : (appendKeyByte b s).skey = s.skey := rfl
@[simp] theorem appendKeyByte_iv (b : Byte) (s : State) : (appendKeyByte b s).iv = s.iv := rfl
@[simp] theorem appendKeyByte_ivlen (b : Byte) (s : State) : (appendKeyByte b s).ivlen = s.ivlen := rfl
@[simp] theorem appendKeyByte_ctr (b : Byte) (s : State) : (appendKeyByte b s).ctr = s.ctr := rfl
@[simp] theorem appendKeyByte_offset (b : Byte) (s : State) : (appendKeyByte b s).offset = s.offset := rfl
@[simp] theorem appendKeyByte_exh (b : Byte) (s : State) : (appendKeyByte b s).exh = s.exh := rfl
@[simp] theorem appendKeyByte_phase (b : Byte) (s : State) : (appendKeyByte b s).phase = s.phase := rfl
@[simp] theorem appendKeyByte_dir (b : Byte) (s : State) : (appendKeyByte b s).dir = s.dir := rfl
@[simp] theorem appendKeyByte_errcode (b : Byte) (s : State) : (appendKeyByte b s).errcode = s.errcode := rfl
@[simp] theorem appendKeyByte_dropped (b : Byte) (s : State) : (appendKeyByte b s).dropped = s.dropped := rfl
@[simp] theorem appendKeyByte_out (b : Byte) (s : State) : (appendKeyByte b s).out = s.out := rfl
@[simp] theorem appendKeyByte_pending (b : Byte) (s : State) : (appendKeyByte b s).pending = s.pending := rfl
@[simp] theorem appendKeyByte_readback (b : Byte) (s : State) : (appendKeyByte b s).readback = s.readback := rfl
@[simp] theorem appendKeyByte_entropy (b : Byte) (s : State) : (appendKeyByte b s).entropy = s.entropy := rfl
@[simp] theorem appendKeyByte_draws (b : Byte) (s : State) : (appendKeyByte b s).draws = s.draws := rfl

/-! ### startStream -/

@[simp] theorem startStream_keybuf (s : State) : (startStream s).keybuf = s.keybuf := rfl
@[simp] theorem startStream_keylen (s : State) : (startStream s).keylen = s.keylen := rfl
@[simp] theorem startStream_skey (s : State) : (startStream s).skey = s.skey := rfl
@[simp] theorem startStream_iv (s : State) : (startStream s).iv = s.iv := rfl
@[simp] theorem startStream_ivlen (s : State) : (startStream s).ivlen = s.ivlen := rfl
@[simp] theorem startStream_ctr (s : State) : (startStream s).ctr = ctr0 s := rfl
@[simp] theorem startStream_offset (s : State) : (startStream s).offset = 0 := rfl
@[simp] theorem startStream_exh (s : State) : (startStream s).exh = false := rfl
@[simp] theorem startStream_phase (s : State) : (startStream s).phase = .stream := rfl
@[simp] theorem startStream_dir (s : State) : (startStream s).dir = s.dir := rfl
@[simp] theorem startStream_errcode (s : State) : (startStream s).errcode = s.errcode := rfl
@[simp] theorem startStream_dropped (s : State) : (startStream s).dropped = s.dropped := rfl
@[simp] theorem startStream_out (s : State) : (startStream s).out = s.out := rfl
@[simp] theorem startStream_pending (s : State) : (startStream s).pending = s.pending := rfl
@[simp] theorem startStream_readback (s : State) : (startStream s).readback = s.readback := rfl
@[simp] theorem startStream_entropy (s : State) : (startStream s).entropy = s.entropy := rfl
@[simp] theorem startStream_draws (s : State) : (startStream s).draws = s.draws := rfl

/-! ### storeIVByte -/

@[simp] theorem storeIVByte_keybuf (b : Byte) (s : State) : (storeIVByte b s).keybuf = s.keybuf := rfl
@[simp] theorem storeIVByte_keylen (b : Byte) (s : State) : (storeIVByte b s).keylen = s.keylen := rfl
@[simp] theorem storeIVByte_skey (b : Byte) (s : State) : (storeIVByte b s).skey = s.skey := rfl
@[simp] theorem storeIVByte_iv (b : Byte) (s : State) :
    (storeIVByte b s).iv = s.iv.setIfInBounds s.ivlen.toNat b := rfl
@[simp] theorem storeIVByte_ivlen (b : Byte) (s : State) : (storeIVByte b s).ivlen = s.ivlen + 1 := rfl
@[simp] theorem storeIVByte_ctr (b : Byte) (s : State) : (storeIVByte b s).ctr = s.ctr := rfl
@[simp] theorem storeIVByte_offset (b : Byte) (s : State) : (storeIVByte b s).offset = s.offset := rfl
@[simp] theorem storeIVByte_exh (b : Byte) (s : State) : (storeIVByte b s).exh = s.exh := rfl
@[simp] theorem storeIVByte_phase (b : Byte) (s : State) : (storeIVByte b s).phase = s.phase := rfl
@[simp] theorem storeIVByte_dir (b : Byte) (s : State) : (storeIVByte b s).dir = s.dir := rfl
@[simp] theorem storeIVByte_errcode (b : Byte) (s : State) : (storeIVByte b s).errcode = s.errcode := rfl
@[simp] theorem storeIVByte_dropped (b : Byte) (s : State) : (storeIVByte b s).dropped = s.dropped := rfl
@[simp] theorem storeIVByte_out (b : Byte) (s : State) : (storeIVByte b s).out = s.out := rfl
@[simp] theorem storeIVByte_pending (b : Byte) (s : State) : (storeIVByte b s).pending = s.pending := rfl
@[simp] theorem storeIVByte_readback (b : Byte) (s : State) : (storeIVByte b s).readback = s.readback := rfl
@[simp] theorem storeIVByte_entropy (b : Byte) (s : State) : (storeIVByte b s).entropy = s.entropy := rfl
@[simp] theorem storeIVByte_draws (b : Byte) (s : State) : (storeIVByte b s).draws = s.draws := rfl

/-! ### nextBlock -/

@[simp] theorem nextBlock_keybuf (s : State) : (nextBlock s).keybuf = s.keybuf := rfl
@[simp] theorem nextBlock_keylen (s : State) : (nextBlock s).keylen = s.keylen := rfl
@[simp] theorem nextBlock_skey (s : State) : (nextBlock s).skey = s.skey := rfl
@[simp] theorem nextBlock_iv (s : State) : (nextBlock s).iv = s.iv := rfl
@[simp] theorem nextBlock_ivlen (s : State) : (nextBlock s).ivlen = s.ivlen := rfl
@[simp] theorem nextBlock_ctr (s : State) : (nextBlock s).ctr = s.ctr + 1 := rfl
@[simp] theorem nextBlock_offset (s : State) : (nextBlock s).offset = 0 := rfl
@[simp] theorem nextBlock_exh (s : State) : (nextBlock s).exh = if s.ctr + 1 = ctr0 s then true else s.exh := rfl
@[simp] theorem nextBlock_phase (s : State) : (nextBlock s).phase = s.phase := rfl
@[simp] theorem nextBlock_dir (s : State) : (nextBlock s).dir = s.dir := rfl
@[simp] theorem nextBlock_errcode (s : State) : (nextBlock s).errcode = s.errcode := rfl
@[simp] theorem nextBlock_dropped (s : State) : (nextBlock s).dropped = s.dropped := rfl
@[simp] theorem nextBlock_out (s : State) : (nextBlock s).out = s.out := rfl
@[simp] theorem nextBlock_pending (s : State) : (nextBlock s).pending = s.pending := rfl
@[simp] theorem nextBlock_readback (s : State) : (nextBlock s).readback = s.readback := rfl
@[simp] theorem nextBlock_entropy (s : State) : (nextBlock s).entropy = s.entropy := rfl
@[simp] theorem nextBlock_draws (s : State) : (nextBlock s).draws = s.draws := rfl

/-! ### beginEncrypt -/

@[simp] theorem beginEncrypt_keybuf (v : Block) (s : State) : (beginEncrypt v s).keybuf = s.keybuf := rfl
@[simp] theorem beginEncrypt_keylen (v : Block) (s : State) : (beginEncrypt v s).keylen = s.keylen := rfl
@[simp] theorem beginEncrypt_skey (v : Block) (s : State) : (beginEncrypt v s).skey = s.keybuf := rfl
@[simp] theorem beginEncrypt_iv (v : Block) (s : State) : (beginEncrypt v s).iv = v := rfl
@[simp] theorem beginEncrypt_ivlen (v : Block) (s : State) : (beginEncrypt v s).ivlen = 16 := rfl
@[simp] theorem beginEncrypt_ctr (v : Block) (s : State) : (beginEncrypt v s).ctr = be64 (slice v 8 8) := rfl
@[simp] theorem beginEncrypt_offset (v : Block) (s : State) : (beginEncrypt v s).offset = 0 := rfl
@[simp] theorem beginEncrypt_exh (v : Block) (s : State) : (beginEncrypt v s).exh = false := rfl
@[simp] theorem beginEncrypt_phase (v : Block) (s : State) : (beginEncrypt v s).phase = .stream := rfl
@[simp] theorem beginEncrypt_dir (v : Block) (s : State) : (beginEncrypt v s).dir = .encrypt := rfl
@[simp] theorem beginEncrypt_errcode (v : Block) (s : State) : (beginEncrypt v s).errcode = s.errcode := rfl
@[simp] theorem beginEncrypt_dropped (v : Block) (s : State) : (beginEncrypt v s).dropped = s.dropped := rfl
@[simp] theorem beginEncrypt_out (v : Block) (s : State) : (beginEncrypt v s).out = s.out ++ v.toList := rfl
@[simp] theorem beginEncrypt_pending (v : Block) (s : State) : (beginEncrypt v s).pending = s.pending := rfl
@[simp] theorem beginEncrypt_readback (v : Block) (s : State) : (beginEncrypt v s).readback = s.readback := rfl
@[simp] theorem beginEncrypt_entropy (v : Block) (s : State) : (beginEncrypt v s).entropy = s.entropy := rfl
@[simp] theorem beginEncrypt_draws (v : Block) (s : State) : (beginEncrypt v s).draws = s.draws := rfl

/-! ### beginDecrypt -/

@[simp] theorem beginDecrypt_keybuf (s : State) : (beginDecrypt s).keybuf = s.keybuf := rfl
@[simp] theorem beginDecrypt_keylen (s : State) : (beginDecrypt s).keylen = s.keylen := rfl
@[simp] theorem beginDecrypt_skey (s : State) : (beginDecrypt s).skey = s.keybuf := rfl
@[simp] theorem beginDecrypt_iv (s : State) : (beginDecrypt s).iv = Bytes.zero 16 := rfl
@[simp] theorem beginDecrypt_ivlen (s : State) : (beginDecrypt s).ivlen = 0 := rfl
@[simp] theorem beginDecrypt_ctr (s : State) : (beginDecrypt s).ctr = 0 := rfl
@[simp] theorem beginDecrypt_offset (s : State) : (beginDecrypt s).offset = 0 := rfl
@[simp] theorem beginDecrypt_exh (s : State) : (beginDecrypt s).exh = false := rfl
@[simp] theorem beginDecrypt_phase (s : State) : (beginDecrypt s).phase = .ivParse := rfl
@[simp] theorem beginDecrypt_dir (s : State) : (beginDecrypt s).dir = .decrypt := rfl
@[simp] theorem beginDecrypt_errcode (s : State) : (beginDecrypt s).errcode = s.errcode := rfl
@[simp] theorem beginDecrypt_dropped (s : State) : (beginDecrypt s).dropped = s.dropped := rfl
@[simp] theorem beginDecrypt_out (s : State) : (beginDecrypt s).out = s.out := rfl
@[simp] theorem beginDecrypt_pending (s : State) : (beginDecrypt s).pending = s.pending := rfl
@[simp] theorem beginDecrypt_readback (s : State) : (beginDecrypt s).readback = s.readback := rfl
@[simp] theorem beginDecrypt_entropy (s : State) : (beginDecrypt s).entropy = s.entropy := rfl
@[simp] theorem beginDecrypt_draws (s : State) : (beginDecrypt s).draws = s.draws := rfl

/-! ### serveRead -/

@[simp] theorem serveRead_keybuf (a : BitVec 4) (s : State) : (serveRead a s).keybuf = s.keybuf := rfl
@[simp] theorem serveRead_keylen (a : BitVec 4) (s : State) : (serveRead a s).keylen = s.keylen := rfl
@[simp] theorem serveRead_skey (a : BitVec 4) (s : State) : (serveRead a s).skey = s.skey := rfl
@[simp] theorem serveRead_iv (a : BitVec 4) (s : State) : (serveRead a s).iv = s.iv := rfl
@[simp] theorem serveRead_ivlen (a : BitVec 4) (s : State) : (serveRead a s).ivlen = s.ivlen := rfl
@[simp] theorem serveRead_ctr (a : BitVec 4) (s : State) : (serveRead a s).ctr = s.ctr := rfl
@[simp] theorem serveRead_offset (a : BitVec 4) (s : State) : (serveRead a s).offset = s.offset := rfl
@[simp] theorem serveRead_exh (a : BitVec 4) (s : State) : (serveRead a s).exh = s.exh := rfl
@[simp] theorem serveRead_phase (a : BitVec 4) (s : State) : (serveRead a s).phase = s.phase := rfl
@[simp] theorem serveRead_dir (a : BitVec 4) (s : State) : (serveRead a s).dir = s.dir := rfl
@[simp] theorem serveRead_errcode (a : BitVec 4) (s : State) : (serveRead a s).errcode = s.errcode := rfl
@[simp] theorem serveRead_dropped (a : BitVec 4) (s : State) : (serveRead a s).dropped = s.dropped := rfl
@[simp] theorem serveRead_out (a : BitVec 4) (s : State) : (serveRead a s).out = s.out := rfl
@[simp] theorem serveRead_pending (a : BitVec 4) (s : State) : (serveRead a s).pending = s.pending := rfl
@[simp] theorem serveRead_readback (a : BitVec 4) (s : State) :
    (serveRead a s).readback = s.readback ++ [readReg s a] := rfl
@[simp] theorem serveRead_entropy (a : BitVec 4) (s : State) : (serveRead a s).entropy = s.entropy := rfl
@[simp] theorem serveRead_draws (a : BitVec 4) (s : State) : (serveRead a s).draws = s.draws := rfl

end Sys2Proof.Machine
end

