-- ==== Sys2Proof/Laws/Ops.lean ====
section
/-! SUPPORT. What each shared operation can do, said once; later proofs cite these lemmas instead of unfolding. -/

namespace Sys2Proof.Machine

/-! ### The error-state filter -/

@[simp] theorem unlessError_of_clear (f : State → State) {s : State} (h : s.errcode = none) :
    unlessError f s = f s := by simp [unlessError, inError, h]

theorem unlessError_of_error (f : State → State) {s : State} (h : s.errcode ≠ none) :
    unlessError f s = dropWord s := by
  have : s.errcode.isSome = true := Option.isSome_iff_ne_none.mpr h
  simp [unlessError, inError, this]

theorem unlessError_cases (f : State → State) (s : State) :
    (s.errcode = none ∧ unlessError f s = f s) ∨ (s.errcode ≠ none ∧ unlessError f s = dropWord s) := by
  by_cases h : s.errcode = none
  · exact .inl ⟨h, unlessError_of_clear f h⟩
  · exact .inr ⟨h, unlessError_of_error f h⟩

/-! ### Data bytes -/

theorem processByte_parsing (b : Byte) {s : State} (h : s.phase = .ivParse) :
    processByte b s = .goOn (ingestIVByte b s) := by simp [processByte, h]

theorem processByte_stream (b : Byte) {s : State} (h : s.phase = .stream) (hx : s.exh = false) :
    processByte b s = .goOn (transformByte b s) := by simp [processByte, h, hx]

theorem processByte_exhausted (b : Byte) {s : State} (h : s.phase = .stream) (hx : s.exh = true) :
    processByte b s = .raised (raise .keystreamExhausted s) := by simp [processByte, h, hx]

@[simp] theorem processBytes_nil (s : State) : processBytes [] s = s := rfl

theorem processBytes_goOn {b : Byte} {bs : List Byte} {s t : State} (h : processByte b s = .goOn t) :
    processBytes (b :: bs) s = processBytes bs t := by simp [processBytes, h]

theorem processBytes_raised {b : Byte} {bs : List Byte} {s t : State} (h : processByte b s = .raised t) :
    processBytes (b :: bs) s = t := by simp [processBytes, h]

theorem transferData_idle (bs : List Byte) {s : State} (h : s.phase = .idle) :
    transferData bs s = raise .noSession s := by simp [transferData, h]

theorem transferData_open (bs : List Byte) {s : State} (h : s.phase ≠ .idle) :
    transferData bs s = processBytes bs s := by
  unfold transferData
  cases hp : s.phase with
  | idle => exact absurd hp h
  | ivParse => rfl
  | stream => rfl

/-- What one IV byte can do: it is stored, and the 16th starts the stream. -/
theorem ingestIVByte_cases (b : Byte) (s : State) :
    (s.ivlen + 1 = 16 ∧ ingestIVByte b s = startStream (storeIVByte b s)) ∨
    (s.ivlen + 1 ≠ 16 ∧ ingestIVByte b s = storeIVByte b s) := by
  unfold ingestIVByte
  by_cases h : s.ivlen + 1 = 16
  · exact .inl ⟨h, if_pos h⟩
  · exact .inr ⟨h, if_neg h⟩

/-- What the counter unit can do: it enters the next block, or moves on within one. -/
theorem advance_cases (s : State) :
    (s.offset = 15 ∧ advance s = nextBlock s) ∨
    (s.offset ≠ 15 ∧ advance s = { s with offset := s.offset + 1 }) := by
  unfold advance
  by_cases h : s.offset = 15
  · exact .inl ⟨h, if_pos h⟩
  · exact .inr ⟨h, if_neg h⟩

/-- Everything the counter unit does, in one update (R174, R175). -/
theorem advance_eq (s : State) :
    advance s = { s with
      offset := s.offset + 1,
      ctr := if s.offset = 15 then s.ctr + 1 else s.ctr,
      exh := if s.offset = 15 ∧ s.ctr + 1 = ctr0 s then true else s.exh } := by
  rcases advance_cases s with ⟨h, h'⟩ | ⟨h, h'⟩ <;> rw [h']
  · simp [nextBlock, h]
  · rw [if_neg h, if_neg (fun c => h c.1)]

/-- The byte at each index of the IV register after one more IV byte (R122). -/
theorem storeIVByte_getElem (b : Byte) (s : State) (k : Fin 16) :
    (storeIVByte b s).iv[k] = if s.ivlen.toNat = k.val then b else s.iv[k] := by
  show (s.iv.setIfInBounds s.ivlen.toNat b)[k] = _
  simp only [Fin.getElem_fin, Vector.getElem_setIfInBounds]

/-- Bytes that raise nothing can be cut anywhere (R176). -/
theorem processBytes_append (xs ys : List Byte) (s : State) (h : (processBytes xs s).errcode = none) :
    processBytes (xs ++ ys) s = processBytes ys (processBytes xs s) := by
  induction xs generalizing s with
  | nil => rfl
  | cons b xs ih =>
    cases hb : processByte b s with
    | goOn t =>
      rw [processBytes_goOn hb] at h
      rw [List.cons_append, processBytes_goOn hb, processBytes_goOn hb, ih t h]
    | raised t =>
      rw [processBytes_raised hb] at h
      have : t.errcode = some .keystreamExhausted := by
        unfold processByte at hb
        split at hb
        · cases hb
        · cases hb
        · split at hb
          · injection hb with hb; subst hb; rfl
          · cases hb
      rw [this] at h; cases h

/-! ### Keys -/

/-- `KeyValid()` reads KEYLEN and nothing else (R100). -/
theorem keyValid_iff (s : State) : keyValid s = true ↔ s.keylen = 32 := by simp [keyValid, Config.keyBytes]

/-- KEYLEN counts up to 63 and stays there (R23, R102). -/
theorem bumpKeylen_toNat (n : BitVec 6) : (bumpKeylen n).toNat = min (n.toNat + 1) 63 := by
  simp only [bumpKeylen, BitVec.toNat_ofNat, Config.keylenMax]
  omega

/-! ### Sessions -/

/-- What ENCSTART can do outside the error state, in the order of its checks. -/
theorem openEncrypt_cases (s : State) :
    (s.phase ≠ .idle ∧ openEncrypt s = raise .sessionActive s) ∨
    (s.phase = .idle ∧ keyValid s = false ∧ openEncrypt s = raise .invalidKeyLength s) ∨
    (s.phase = .idle ∧ keyValid s = true ∧ nextAnswer s = .fail ∧
      openEncrypt s = raise .entropyFailure (takeAnswer s)) ∨
    (s.phase = .idle ∧ keyValid s = true ∧ ∃ v, nextAnswer s = .bytes v ∧
      openEncrypt s = beginEncrypt v (takeAnswer s)) := by
  by_cases hp : s.phase = .idle
  · by_cases hk : keyValid s = true
    · refine .inr (.inr ?_)
      cases ha : nextAnswer s with
      | fail => exact .inl ⟨hp, hk, rfl, by simp [openEncrypt, hp, hk, drawAndBegin, draw16, ha]⟩
      | bytes v => exact .inr ⟨hp, hk, v, rfl, by simp [openEncrypt, hp, hk, drawAndBegin, draw16, ha]⟩
    · exact .inr (.inl ⟨hp, by simpa using hk, by simp [openEncrypt, hp, hk]⟩)
  · exact .inl ⟨hp, by simp [openEncrypt, hp]⟩

/-- What DECSTART can do outside the error state, in the order of its checks. -/
theorem openDecrypt_cases (s : State) :
    (s.phase ≠ .idle ∧ openDecrypt s = raise .sessionActive s) ∨
    (s.phase = .idle ∧ keyValid s = false ∧ openDecrypt s = raise .invalidKeyLength s) ∨
    (s.phase = .idle ∧ keyValid s = true ∧ openDecrypt s = beginDecrypt s) := by
  by_cases hp : s.phase = .idle
  · by_cases hk : keyValid s = true
    · exact .inr (.inr ⟨hp, hk, by simp [openDecrypt, hp, hk]⟩)
    · exact .inr (.inl ⟨hp, by simpa using hk, by simp [openDecrypt, hp, hk]⟩)
  · exact .inl ⟨hp, by simp [openDecrypt, hp]⟩

/-- What END can do outside the error state. -/
theorem closeSession_cases (s : State) :
    (s.phase = .idle ∧ closeSession s = raise .noSession s) ∨
    (s.phase = .ivParse ∧ closeSession s = raise .truncatedEnvelope s) ∨
    (s.phase = .stream ∧ closeSession s = clearSession s) := by
  unfold closeSession
  cases s.phase <;> simp

/-! ### Commands and steps -/

/-- The state a command leads to; `exec_eq` says that it is the one `exec` answers. -/
def effect : Instr → State → State
  | .nop => id
  | .errclr => acknowledge
  | .sreset => resetState
  | .kclr => unlessError clearKey
  | .kbyte b => unlessError (appendKeyByte b)
  | .encstart => unlessError openEncrypt
  | .decstart => unlessError openDecrypt
  | .endSession => unlessError closeSession
  | .abort => unlessError clearSession
  | .data1 d0 => unlessError (transferData [d0])
  | .data2 d0 d1 => unlessError (transferData [d0, d1])
  | .data3 d0 d1 d2 => unlessError (transferData [d0, d1, d2])

theorem exec_eq (i : Instr) (s : State) : exec i s = .next (effect i s) := by cases i <;> rfl

/-- A DATA command is the transfer of its bytes. -/
theorem effect_data {i : Instr} {bs : List Byte} (h : dataBytes i = some bs) (s : State) :
    effect i s = unlessError (transferData bs) s := by
  cases i <;> simp_all [dataBytes, effect]

/-- What one step can do: wait, execute a command, meet an illegal word, serve a register read, reset. -/
theorem step_cases (s : State) :
    (s.pending = [] ∧ step s = .next s) ∨
    (∃ w rest i, s.pending = .command w :: rest ∧ decode w = .ok i ∧
      step s = .next (effect i { s with pending := rest })) ∨
    (∃ w rest e, s.pending = .command w :: rest ∧ decode w = .error e ∧
      step s = .next (illegalWord { s with pending := rest })) ∨
    (∃ a rest, s.pending = .readRegister a :: rest ∧ step s = .next (serveRead a { s with pending := rest })) ∨
    (∃ rest, s.pending = .reset :: rest ∧ step s = .next (resetState { s with pending := rest })) := by
  cases hp : s.pending with
  | nil => exact .inl ⟨rfl, by simp [step, takeNextEvent, hp]⟩
  | cons e rest =>
    cases e with
    | command w =>
      cases hd : decode w with
      | ok i =>
        exact .inr (.inl ⟨w, rest, i, rfl, hd, by simp [step, takeNextEvent, hp, takeEvent, execWord, hd, exec_eq]⟩)
      | error e =>
        exact .inr (.inr (.inl ⟨w, rest, e, rfl, hd, by simp [step, takeNextEvent, hp, takeEvent, execWord, hd]⟩))
    | readRegister a =>
      exact .inr (.inr (.inr (.inl ⟨a, rest, rfl, by simp [step, takeNextEvent, hp, takeEvent]⟩)))
    | reset => exact .inr (.inr (.inr (.inr ⟨rest, rfl, by simp [step, takeNextEvent, hp, takeEvent]⟩)))

/-- Sequences run one command at a time. -/
theorem runCommands_cons (i : Instr) (is : List Instr) (s : State) :
    runCommands (i :: is) s = runCommands is (effect i s) := by simp [runCommands, exec_eq]

theorem runCommands_append (is js : List Instr) (s t : State) (h : runCommands is s = .next t) :
    runCommands (is ++ js) s = runCommands js t := by
  induction is generalizing s with
  | nil =>
    simp only [runCommands, Host.Outcome.next.injEq] at h
    rw [h]; rfl
  | cons i is ih =>
    rw [runCommands_cons] at h
    simpa [runCommands_cons] using ih _ h

end Sys2Proof.Machine
end

