-- ==== Sys2Proof/Laws/PerInstr.lean ====
section
/-! SUPPORT. Statements about every command as syntax, one lemma per constructor. -/

namespace Sys2Proof.Laws

/-- The word of a command is in its own row of the opcode map (R85): it has the row's mnemonic, and satisfies the row's
mask and match. -/
def InOpcodeMap.Statement (i : Instr) : Prop :=
  ∃ r ∈ opcodeMap, r.mnemonic = i.mnemonic ∧ r.matchesWord (encode i) = true

/-- A fixed word with a byte in its low 8 bits, under the mask of formats B and D1. -/
theorem mask_low_byte (op b : Byte) :
    (op.setWidth 32 <<< 24 ||| b.setWidth 32) &&& 0xFFFFFF00#32 = op.setWidth 32 <<< 24 := by
  ext i hi
  interval_cases i <;> simp

/-- A fixed word with two bytes in its low 16 bits, under the mask of format D2. -/
theorem mask_two_bytes (op b c : Byte) :
    (op.setWidth 32 <<< 24 ||| b.setWidth 32 <<< 8 ||| c.setWidth 32) &&& 0xFFFF0000#32 = op.setWidth 32 <<< 24 := by
  ext i hi
  interval_cases i <;> simp

/-- A fixed word with three bytes in its low 24 bits, under the mask of format D3. -/
theorem mask_three_bytes (op b c d : Byte) :
    (op.setWidth 32 <<< 24 ||| b.setWidth 32 <<< 16 ||| c.setWidth 32 <<< 8 ||| d.setWidth 32) &&& 0xFF000000#32 =
      op.setWidth 32 <<< 24 := by
  ext i hi
  interval_cases i <;> simp

theorem InOpcodeMap.nop : InOpcodeMap.Statement .nop := ⟨⟨"NOP", 0x00000000, 0xFFFFFFFF⟩, by decide⟩

theorem InOpcodeMap.errclr : InOpcodeMap.Statement .errclr := ⟨⟨"ERRCLR", 0x01000000, 0xFFFFFFFF⟩, by decide⟩

theorem InOpcodeMap.sreset : InOpcodeMap.Statement .sreset := ⟨⟨"SRESET", 0x02000000, 0xFFFFFFFF⟩, by decide⟩

theorem InOpcodeMap.kclr : InOpcodeMap.Statement .kclr := ⟨⟨"KCLR", 0x10000000, 0xFFFFFFFF⟩, by decide⟩

theorem InOpcodeMap.kbyte (b : Byte) : InOpcodeMap.Statement (.kbyte b) :=
  ⟨⟨"KBYTE", 0x11000000, 0xFFFFFF00⟩, by decide, rfl,
    by simpa [OpcodeRow.matchesWord, encode] using mask_low_byte 0x11 b⟩

theorem InOpcodeMap.encstart : InOpcodeMap.Statement .encstart := ⟨⟨"ENCSTART", 0x20000000, 0xFFFFFFFF⟩, by decide⟩

theorem InOpcodeMap.decstart : InOpcodeMap.Statement .decstart := ⟨⟨"DECSTART", 0x21000000, 0xFFFFFFFF⟩, by decide⟩

theorem InOpcodeMap.endSession : InOpcodeMap.Statement .endSession := ⟨⟨"END", 0x22000000, 0xFFFFFFFF⟩, by decide⟩

theorem InOpcodeMap.abort : InOpcodeMap.Statement .abort := ⟨⟨"ABORT", 0x23000000, 0xFFFFFFFF⟩, by decide⟩

theorem InOpcodeMap.data1 (d0 : Byte) : InOpcodeMap.Statement (.data1 d0) :=
  ⟨⟨"DATA1", 0x31000000, 0xFFFFFF00⟩, by decide, rfl,
    by simpa [OpcodeRow.matchesWord, encode] using mask_low_byte 0x31 d0⟩

theorem InOpcodeMap.data2 (d0 d1 : Byte) : InOpcodeMap.Statement (.data2 d0 d1) :=
  ⟨⟨"DATA2", 0x32000000, 0xFFFF0000⟩, by decide, rfl,
    by simpa [OpcodeRow.matchesWord, encode] using mask_two_bytes 0x32 d0 d1⟩

theorem InOpcodeMap.data3 (d0 d1 d2 : Byte) : InOpcodeMap.Statement (.data3 d0 d1 d2) :=
  ⟨⟨"DATA3", 0x33000000, 0xFF000000⟩, by decide, rfl,
    by simpa [OpcodeRow.matchesWord, encode] using mask_three_bytes 0x33 d0 d1 d2⟩

end Sys2Proof.Laws
end

