-- ==== Sys2Proof/Tests/Slice0.lean ====
section
/-! SUPPORT. Tests on fixed values and, for every statement of Certificates/Slice0 with hypotheses, a theorem
`witness_<Name>` that meets them. Expected values are those of spec/95_test_vectors.md (V<n>) or written out from the
rule cited; none was taken from the model. -/

namespace Sys2Proof.Tests

open Sys2Proof Sys2Proof.Machine

/-- The next state of an outcome, if it is one. -/
def nextOf (o : Host.Outcome State Fault Refusal) : Option State :=
  match o with
  | .next s => some s
  | .fault _ => none
  | .refused _ => none

/-- An outcome of which a view is known is a next state with that view. -/
theorem of_nextOf {α : Type} {o : Host.Outcome State Fault Refusal} {f : State → α} {v : α}
    (h : (nextOf o).map f = some v) : ∃ s, o = .next s ∧ f s = v := by
  cases o with
  | next s => exact ⟨s, rfl, by simpa [nextOf] using h⟩
  | fault r => simp [nextOf] at h
  | refused r => simp [nextOf] at h

/-- The key KA of spec/95_test_vectors.md, the ASCII string 0123456789abcdef twice. -/
def keyA : Key :=
  #v[0x30, 0x31, 0x32, 0x33, 0x34, 0x35, 0x36, 0x37, 0x38, 0x39, 0x61, 0x62, 0x63, 0x64, 0x65, 0x66,
     0x30, 0x31, 0x32, 0x33, 0x34, 0x35, 0x36, 0x37, 0x38, 0x39, 0x61, 0x62, 0x63, 0x64, 0x65, 0x66]

/-- IV0 of spec/95_test_vectors.md. -/
def iv0 : Block :=
  #v[0x00, 0x01, 0x02, 0x03, 0x04, 0x05, 0x06, 0x07, 0x08, 0x09, 0x0a, 0x0b, 0x0c, 0x0d, 0x0e, 0x0f]

/-- IDLE with KA loaded; the entropy source will answer IV0. -/
def keyed : State := { State.reset with keybuf := keyA, keylen := 32, entropy := [.bytes iv0] }

/-- An encrypt session of KA and IV0 that has consumed `n` data bytes of the first block. -/
def live (n : BitVec 4) : State :=
  { State.reset with
    keybuf := keyA, keylen := 32, skey := keyA, iv := iv0, ivlen := 16, ctr := 0x08090a0b0c0d0e0f, offset := n,
    phase := .stream }

/-- A decrypt session of KA that holds the first `n` bytes of IV0. -/
def parsing (n : BitVec 5) : State :=
  { State.reset with
    keybuf := keyA, keylen := 32, skey := keyA, ivlen := n, phase := .ivParse, dir := .decrypt,
    iv := Vector.ofFn fun i => if i.val < n.toNat then iv0[i] else 0 }

/-- The state of V34: CTR0 = 5, one block before exhaustion. -/
def nearEnd (n : BitVec 4) : State :=
  { State.reset with
    keylen := 32, skey := keyA, ivlen := 16, ctr := 4, offset := n, phase := .stream, dir := .decrypt,
    iv := #v[0x00, 0x01, 0x02, 0x03, 0x04, 0x05, 0x06, 0x07, 0x00, 0x00, 0x00, 0x00, 0x00, 0x00, 0x00, 0x05] }

/-- The state of V34 after its first step: the stream is exhausted. -/
def exhausted : State := { nearEnd 0 with ctr := 5, exh := true }

/-- The error state of V15, with a dropped word (V52). -/
def errored : State := { State.reset with errcode := some .illegalCommand, dropped := true }

/-! ### Decoding: words written out from the bit fields of R81–R84 -/

theorem test_decode_nop : decode 0x00000000 = .ok .nop := by decide
theorem test_decode_errclr : decode 0x01000000 = .ok .errclr := by decide
theorem test_decode_sreset : decode 0x02000000 = .ok .sreset := by decide
theorem test_decode_kclr : decode 0x10000000 = .ok .kclr := by decide
theorem test_decode_kbyte : decode 0x11000030 = .ok (.kbyte 0x30) := by decide
theorem test_decode_encstart : decode 0x20000000 = .ok .encstart := by decide
theorem test_decode_decstart : decode 0x21000000 = .ok .decstart := by decide
theorem test_decode_end : decode 0x22000000 = .ok .endSession := by decide
theorem test_decode_abort : decode 0x23000000 = .ok .abort := by decide
theorem test_decode_data1 : decode 0x31000021 = .ok (.data1 0x21) := by decide
theorem test_decode_data2 : decode 0x32004869 = .ok (.data2 0x48 0x69) := by decide
theorem test_decode_data3 : decode 0x33ff6bc1 = .ok (.data3 0xff 0x6b 0xc1) := by decide

/-- V15: unassigned opcodes. -/
theorem test_decode_unassigned :
    decode 0x30000000 = .error (.unassignedOpcode 0x30) ∧ decode 0x12000000 = .error (.unassignedOpcode 0x12) ∧
    decode 0xff000000 = .error (.unassignedOpcode 0xff) ∧ decode 0x0f000000 = .error (.unassignedOpcode 0x0f) ∧
    decode 0x24000000 = .error (.unassignedOpcode 0x24) := by decide

/-- V15: nonzero reserved bits. -/
theorem test_decode_reserved :
    decode 0x00000001 = .error (.reservedBits 0x00) ∧ decode 0x1000ff00 = .error (.reservedBits 0x10) ∧
    decode 0x11000100 = .error (.reservedBits 0x11) ∧ decode 0x31000100 = .error (.reservedBits 0x31) ∧
    decode 0x32010000 = .error (.reservedBits 0x32) := by decide

/-- V16: DATA3 has no reserved bits. -/
theorem test_decode_data3_full : decode 0x33ffffff = .ok (.data3 0xff 0xff 0xff) := by decide

/-- The opcode table's bits of a row, as the host gives them. -/
theorem test_decodeTableWord : decodeTableWord 32 0x11000030 = some (.kbyte 0x30) := by decide

/-! ### Well-formedness: each check refuses an ill-formed line (R89, R91) -/

theorem test_wellFormed_kbyte : (AsmLine.kbyte 256).wellFormed = false := by decide
theorem test_wellFormed_data1 : (AsmLine.data1 256).wellFormed = false := by decide
theorem test_wellFormed_data2 :
    (AsmLine.data2 256 0).wellFormed = false ∧ (AsmLine.data2 0 256).wellFormed = false := by decide
theorem test_wellFormed_data3 :
    (AsmLine.data3 256 0 0).wellFormed = false ∧ (AsmLine.data3 0 256 0).wellFormed = false ∧
    (AsmLine.data3 0 0 256).wellFormed = false := by decide
theorem test_wellFormed_key : (AsmLine.key [0, 256]).wellFormed = false := by decide
theorem test_wellFormed_bytes : (AsmLine.bytes [256]).wellFormed = false := by decide
theorem test_wellFormed_bytesBy :
    (AsmLine.bytesBy 4 [0]).wellFormed = false ∧ (AsmLine.bytesBy 0 [0]).wellFormed = false ∧
    (AsmLine.bytesBy 2 [256]).wellFormed = false := by decide
theorem test_wellFormed_encrypt : (AsmLine.encrypt [256]).wellFormed = false := by decide
theorem test_wellFormed_decrypt : (AsmLine.decrypt [0, 256]).wellFormed = false := by decide

/-- R89: an operand out of range is an assembly error, never a truncated word. -/
theorem test_assemble_out_of_range : assemble (.data1 256) = .error .operandOutOfRange := by decide

/-- R91's example: `BYTES/2 48 69 21` is 0x32004869, 0x31000021, and `BYTES 48 69 21` is 0x33486921. -/
theorem test_assemble_bytes :
    assemble (.bytesBy 2 [0x48, 0x69, 0x21]) = .ok [0x32004869, 0x31000021] ∧
    assemble (.bytes [0x48, 0x69, 0x21]) = .ok [0x33486921] := by decide

/-- R89, R90: mnemonics in any case, a comment, a key in quotation marks, operands in either notation. -/
theorem test_assembleText :
    assembleText "key \"0;1\" ; two lines".toList = .ok [0x10000000, 0x11000030, 0x1100003b, 0x11000031] ∧
    assembleText "Data2 0x48, 105 ; text".toList = .ok [0x32004869] := by decide +kernel

/-! ### Commands: one step each -/

/-- V50. -/
theorem test_nop : (nextOf (exec .nop State.reset)).map statusWord = some 0x00000000 := by decide

/-- V51: STATUS 00007f10 becomes 00007c00. -/
theorem test_errclr :
    statusWord { State.reset with keylen := 31, errcode := some .invalidKeyLength, dropped := true } = 0x00007f10 ∧
    (nextOf (exec .errclr { State.reset with
      keylen := 31, errcode := some .invalidKeyLength, dropped := true })).map statusWord = some 0x00007c00 := by decide

/-- V52: SRESET in the error state. -/
theorem test_sreset : statusWord errored = 0x00000330 ∧ nextOf (exec .sreset errored) = some State.reset := by decide

/-- V52: what was emitted stays. -/
theorem test_sreset_keeps_output :
    (nextOf (exec .sreset { live 1 with out := iv0.toList ++ [0x53] })).map (fun t => (statusWord t, t.out.length)) =
      some (0x00000000, 17) := by decide

/-- V22: KCLR in a session leaves the session key. -/
theorem test_kclr :
    (nextOf (exec .kclr (live 0))).map (fun t => (t.keylen, t.skey == keyA, t.phase)) = some (0, true, .stream) := by
  decide

/-- V21. -/
theorem test_kbyte :
    (nextOf (exec (.kbyte 0x30) State.reset)).map (fun t => (statusWord t, t.keybuf[0])) = some (0x00000400, 0x30) := by
  decide

/-- R102: the 33rd byte is counted and not stored; KEYLEN stays at 63. -/
theorem test_kbyte_beyond :
    (nextOf (exec (.kbyte 0x55) keyed)).map (fun t => (t.keylen, t.keybuf == keyA)) = some (33, true) ∧
    (nextOf (exec (.kbyte 0x55) { keyed with keylen := 63 })).map (fun t => t.keylen) = some 63 := by decide

/-- V40: STATUS, the counter and the emitted IV. -/
theorem test_encstart :
    (nextOf (exec .encstart keyed)).map (fun t => (statusWord t, t.ctr, t.out == iv0.toList, t.draws)) =
      some (0x01008002, 0x08090a0b0c0d0e0f, true, 1) := by decide

/-- V41: a FAIL answer. -/
theorem test_encstart_fail :
    (nextOf (exec .encstart { keyed with entropy := [.fail] })).map (fun t => (statusWord t, t.out, t.draws)) =
      some (0x00008270, [], 1) := by decide

/-- R202's example; V42. -/
theorem test_decstart :
    (nextOf (exec .decstart keyed)).map statusWord = some 0x00008005 ∧
    (nextOf (exec .decstart (parsing 0))).map statusWord = some 0x00008250 := by decide

/-- V44: after END only KEYLEN is left; 15 envelope bytes are too few; no session is an error. -/
theorem test_end :
    (nextOf (exec .endSession (live 3))).map statusWord = some 0x00008000 ∧
    (nextOf (exec .endSession (parsing 15))).map statusWord = some 0x00008220 ∧
    (nextOf (exec .endSession State.reset)).map statusWord = some 0x00000240 := by decide

/-- V45. -/
theorem test_abort :
    (nextOf (exec .abort (parsing 1))).map statusWord = some 0x00008000 ∧
    (nextOf (exec .abort State.reset)).map statusWord = some 0x00000000 := by decide

/-- V26: the fourth IV byte. -/
theorem test_data1_iv :
    (nextOf (exec (.data1 0x03) (parsing 3))).map (fun t => (statusWord t, readReg t 3, readReg t 4, t.out)) =
      some (0x00408005, 0x00010203, 0x00000000, []) := by decide

/-- V35, V22: a zero byte emits the first keystream byte. -/
theorem test_data1_stream :
    (nextOf (exec (.data1 0x00) (live 0))).map (fun t => (statusWord t, t.out)) = some (0x01018002, [0x53]) := by
  decide +kernel

/-- V32: DATA2 across a block boundary. -/
theorem test_data2 :
    (nextOf (exec (.data2 0x00 0x00) (live 15))).map (fun t => (statusWord t, t.ctr, t.out)) =
      some (0x01018002, 0x08090a0b0c0d0e10, [0x21, 0x46]) := by decide +kernel

/-- V27: the 16th IV byte and two ciphertext bytes in one word. -/
theorem test_data3 :
    (nextOf (exec (.data3 0x0f 0x48 0x69) (parsing 15))).map (fun t => (statusWord t, t.ctr, t.out)) =
      some (0x01028006, 0x08090a0b0c0d0e0f, [0x1b, 0x34]) := by decide +kernel

/-- V34, variant: the third byte meets exhaustion, the two before it stay emitted. -/
theorem test_data3_exhaustion :
    (nextOf (exec (.data3 0x00 0x00 0x00) (nearEnd 14))).map (fun t => (statusWord t, t.out)) =
      some (0x00008260, [0x43, 0x51]) := by decide +kernel

/-- V40: register reads, and the host's view of one. -/
theorem test_register_read :
    (nextOf (step { live 0 with pending := [.readRegister 0x2] })).map (fun t => t.readback) = some [0x0c0d0e0f] ∧
    readReg (live 0) 0x4 = 0x04050607 ∧ readReg (live 0) 0x5 = 0x08090a0b ∧ readReg (live 0) 0xf = 0 := by decide

/-- The next step of a state with a word offered executes that word; V15's illegal word. -/
theorem test_step_offered_word :
    (nextOf (step (State.reset.withFetchWord 32 0x11000030))).map statusWord = some 0x00000400 ∧
    (nextOf (step (State.reset.withFetchWord 32 0xffffffff))).map statusWord = some 0x00000230 := by decide

/-! ### AES-256 -/

/-- V10. -/
theorem test_field :
    xtime 0x57 = 0xae ∧ gmul 0x57 0x83 = 0xc1 ∧ gmul 0x57 0x13 = 0xfe ∧ sbox 0x53 = 0xed ∧ gfInverse 0x53 = 0xca := by
  decide

/-- V10: the column db 13 53 45 becomes 8e 4d a1 bc. -/
theorem test_mixColumn :
    (mixRow 0 0xdb 0x13 0x53 0x45, mixRow 1 0xdb 0x13 0x53 0x45, mixRow 2 0xdb 0x13 0x53 0x45,
      mixRow 3 0xdb 0x13 0x53 0x45) = (0x8e, 0x4d, 0xa1, 0xbc) := by decide

/-- V11, V12: FIPS-197 C.3. -/
theorem test_aes256 :
    aes256Encrypt (Vector.ofFn fun i => BitVec.ofNat 8 i.val) (Vector.ofFn fun i => BitVec.ofNat 8 (17 * i.val)) =
      #v[0x8e, 0xa2, 0xb7, 0xca, 0x51, 0x67, 0x45, 0xbf, 0xea, 0xfc, 0x49, 0x90, 0x4b, 0x49, 0x60, 0x89] := by
  decide +kernel

theorem test_keyExpansion :
    (keyExpansion (Vector.ofFn fun i => BitVec.ofNat 8 i.val)).getD 59 (Bytes.zero 4) = #v[0x6d, 0x68, 0xde, 0x36] := by
  decide +kernel

/-! ### Witnesses: concrete states and operands that meet the hypotheses of a statement -/

theorem witness_DecodedWordIsTheEncoding : decode 0x32004869 = .ok (.data2 0x48 0x69) := by decide

theorem witness_DecodeFollowsOpcodeMap : ⟨"KBYTE", 0x11000000, 0xFFFFFF00⟩ ∈ opcodeMap := by decide

/-- The last operand in range and the first out of it. -/
theorem witness_AssembledWordsDecode :
    (255 ≤ 255 ∧ assemble (.kbyte 255) = .ok [0x110000ff]) ∧
    (¬256 ≤ 255 ∧ assemble (.kbyte 256) = .error .operandOutOfRange) ∧
    assemble (.key [0x30]) = .ok [0x10000000, 0x11000030] ∧
    assemble (.encrypt [0x48, 0x69, 0x21]) = .ok [0x20000000, 0x33486921, 0x22000000] ∧
    assemble (.decrypt [0x21]) = .ok [0x21000000, 0x31000021, 0x22000000] := by decide

theorem witness_StepRunsDecodedCommand :
    ({ keyed with pending := [.command 0x20000000, .reset] } : State).pending = .command 0x20000000 :: [.reset] ∧
    decode 0x20000000 = .ok .encstart := by decide

/-- A word that no row matches, in and out of the error state. -/
theorem witness_IllegalWordRaises :
    (∀ r ∈ opcodeMap, r.matchesWord 0x30000000 = false) ∧
    ({ live 3 with pending := [.command 0x30000000] } : State).errcode = none ∧
    ({ errored with pending := [.command 0x30000000] } : State).errcode ≠ none := by decide

/-- Each of the three exact words, and two words next to them that are neither. -/
theorem witness_ErrorStateFilter :
    errored.errcode ≠ none ∧
    ({ errored with pending := [.command 0x00000000] } : State).pending = .command 0x00000000 :: [] ∧
    ({ errored with pending := [.command 0x01000000] } : State).pending = .command 0x01000000 :: [] ∧
    ({ errored with pending := [.command 0x02000000] } : State).pending = .command 0x02000000 :: [] ∧
    ((0x00000001 : Word) ≠ 0x00000000 ∧ (0x00000001 : Word) ≠ 0x01000000 ∧ (0x00000001 : Word) ≠ 0x02000000) ∧
    ((0x22000000 : Word) ≠ 0x00000000 ∧ (0x22000000 : Word) ≠ 0x01000000 ∧ (0x22000000 : Word) ≠ 0x02000000) ∧
    ({ errored with pending := [.readRegister 0x0] } : State).pending = .readRegister 0x0 :: [] ∧
    ({ errored with pending := [.reset] } : State).pending = .reset :: [] := by
  decide

theorem witness_RegisterReadChangesNothing :
    ({ errored with pending := [.readRegister 0xf] } : State).pending = .readRegister 0xf :: [] := by decide

theorem witness_ResetClearsEveryElement :
    ({ live 3 with pending := [.reset] } : State).pending = .reset :: [] := by decide

theorem witness_WaitsWithNothingPending : State.reset.pending = [] := by decide

/-- A live stream one byte before the end of a block, about to take a DATA2. -/
theorem witness_StepKeepsInvariants :
    ({ live 15 with pending := [.command 0x32000000] } : State).Inv ∧
    ∃ t, step { live 15 with pending := [.command 0x32000000] } = .next t :=
  ⟨⟨by decide, by decide, by decide, by decide, by decide, by decide⟩, _, rfl⟩

/-- The state of V34 meets it before and after EXH rises. -/
theorem witness_StepKeepsExhaustion :
    ({ nearEnd 15 with pending := [.command 0x31000000] } : State).ExhInv ∧ exhausted.ExhInv ∧ exhausted.exh = true ∧
    ∃ t, step { nearEnd 15 with pending := [.command 0x31000000] } = .next t :=
  ⟨by unfold State.ExhInv; decide, by unfold State.ExhInv; decide, by decide, _, rfl⟩

theorem witness_OutputOnlyGrows : ∃ t, step { keyed with pending := [.command 0x20000000] } = .next t := ⟨_, rfl⟩

theorem witness_EntropyOnlyForEncstart :
    ∃ t, step { keyed with pending := [.command 0x20000000] } = .next t ∧ t.draws = 1 := by
  exact of_nextOf (f := fun t => t.draws) (by decide)

theorem witness_EntropyAnswersInOrder : keyed.entropy = .bytes iv0 :: [] := by decide

/-- KBYTE in a live stream, and the fifteenth IV byte in IV_PARSE. -/
theorem witness_SessionKeepsItsKeyAndIv :
    (∃ t, step { live 3 with pending := [.command 0x11000055] } = .next t ∧ t.phase = .stream) ∧
    (live 3).phase ≠ .idle ∧ (live 3).phase = .stream ∧
    (∃ t, step { parsing 14 with pending := [.command 0x31000000] } = .next t ∧ t.phase = .ivParse) ∧
    (parsing 14).phase ≠ .idle :=
  ⟨of_nextOf (f := fun t => t.phase) (by decide), by decide, by decide,
    of_nextOf (f := fun t => t.phase) (by decide), by decide⟩

/-- Two live streams with different keys, about to read a register or take a KBYTE. -/
theorem witness_KeysReachOnlyTheData :
    SameButKeys { live 3 with pending := [.command 0x11000055] }
      { live 3 with pending := [.command 0x11000055], keybuf := Bytes.zero 32, skey := Bytes.zero 32 } ∧
    decode 0x11000055 = .ok (.kbyte 0x55) ∧ dataBytes (.kbyte 0x55) = none ∧
    ∃ s', step { live 3 with pending := [.command 0x11000055] } = .next s' :=
  ⟨rfl, by decide, by decide, _, rfl⟩

/-- Two live streams with different keys and different output of one length, about to take a DATA1. -/
theorem witness_WrongKeyChangesOnlyBytes :
    SameButKeysAndOutput { live 3 with pending := [.command 0x31000055], out := [0x00] }
      { live 3 with pending := [.command 0x31000055], out := [0x01], skey := Bytes.zero 32 } ∧
    ∃ s', step { live 3 with pending := [.command 0x31000055], out := [0x00] } = .next s' :=
  ⟨⟨rfl, rfl⟩, _, rfl⟩

theorem witness_NopChangesNothing : opcodeOf 0x00000001 = 0x00 ∧ (0x00000001 : Word) ≠ 0x00000000 := by decide

theorem witness_ErrclrEffect :
    (State.reset.Inv ∧ State.reset.errcode = none) ∧
    (errored.Inv ∧ errored.errcode ≠ none ∧ ∃ t, exec .errclr errored = .next t) :=
  ⟨⟨⟨by decide, by decide, by decide, by decide, by decide, by decide⟩, by decide⟩,
    ⟨by decide, by decide, by decide, by decide, by decide, by decide⟩, by decide, _, rfl⟩

theorem witness_KclrEffect : (live 3).errcode = none ∧ errored.errcode ≠ none := by decide

/-- The buffer with room for its last byte, full, and with the count at its end; and the error state. -/
theorem witness_KbyteEffect :
    ({ keyed with keylen := 31 } : State).errcode = none ∧ keyed.errcode = none ∧
    ({ keyed with keylen := 63 } : State).errcode = none ∧ errored.errcode ≠ none := by decide

theorem witness_KeyLineLoadsTheKey : (live 3).errcode = none := by decide

theorem witness_EncstartOpensSession :
    keyed.errcode = none ∧ keyed.phase = .idle ∧ keyed.keylen = 32 ∧ nextAnswer keyed = .bytes iv0 := by decide

/-- A state for each error, KEYLEN on both sides of 32. -/
theorem witness_EncstartErrors :
    (((live 0).errcode = none ∧ (live 0).phase ≠ .idle) ∧ ((parsing 0).errcode = none ∧ (parsing 0).phase ≠ .idle)) ∧
    (({ keyed with keylen := 31 } : State).errcode = none ∧ ({ keyed with keylen := 31 } : State).phase = .idle ∧
      ({ keyed with keylen := 31 } : State).keylen ≠ 32 ∧ ({ keyed with keylen := 33 } : State).keylen ≠ 32) ∧
    (({ keyed with entropy := [.fail] } : State).errcode = none ∧ keyed.phase = .idle ∧ keyed.keylen = 32 ∧
      nextAnswer { keyed with entropy := [.fail] } = .fail) ∧
    errored.errcode ≠ none := by decide

theorem witness_DecstartOpensSession : keyed.errcode = none ∧ keyed.phase = .idle ∧ keyed.keylen = 32 := by decide

theorem witness_DecstartErrors :
    ((live 0).errcode = none ∧ (live 0).phase ≠ .idle) ∧ ((parsing 0).errcode = none ∧ (parsing 0).phase ≠ .idle) ∧
    (({ keyed with keylen := 33 } : State).errcode = none ∧ ({ keyed with keylen := 33 } : State).phase = .idle ∧
      ({ keyed with keylen := 33 } : State).keylen ≠ 32) ∧
    errored.errcode ≠ none := by decide

theorem witness_EndClosesStream : (live 3).errcode = none ∧ (live 3).phase = .stream := by decide

/-- No session, a session with no IV byte and one with 15, and the error state. -/
theorem witness_EndErrors :
    (keyed.errcode = none ∧ keyed.phase = .idle) ∧ ((parsing 0).errcode = none ∧ (parsing 0).phase = .ivParse) ∧
    ((parsing 15).errcode = none ∧ (parsing 15).phase = .ivParse) ∧ errored.errcode ≠ none := by decide

theorem witness_AbortEffect :
    (live 3).errcode = none ∧ (parsing 3).errcode = none ∧ (keyed.Inv ∧ keyed.errcode = none ∧ keyed.phase = .idle) ∧
    errored.errcode ≠ none :=
  ⟨by decide, by decide, ⟨⟨by decide, by decide, by decide, by decide, by decide, by decide⟩, by decide, by decide⟩,
    by decide⟩

/-- A DATA3 that ends a block where exhaustion follows (V34), and one that crosses a block where it does not. -/
theorem witness_DataInStream :
    dataBytes (.data3 0 0 0) = some [0, 0, 0] ∧
    ((nearEnd 13).errcode = none ∧ (nearEnd 13).phase = .stream ∧ (nearEnd 13).exh = false ∧
      (nearEnd 13).offset.toNat + [(0 : Byte), 0, 0].length ≤ 16) ∧
    ((live 14).errcode = none ∧ (live 14).phase = .stream ∧ (live 14).exh = false ∧
      (live 14).ctr + 1 ≠ ctr0 (live 14)) := by decide

/-- The last DATA3 that fits, up to index 14. -/
theorem witness_DataFillsIv :
    dataBytes (.data3 1 2 3) = some [1, 2, 3] ∧ (parsing 12).errcode = none ∧ (parsing 12).phase = .ivParse ∧
    (parsing 12).ivlen.toNat + [(1 : Byte), 2, 3].length ≤ 15 := by decide

theorem witness_SixteenthIvByteStartsStream :
    (parsing 15).errcode = none ∧ (parsing 15).phase = .ivParse ∧ (parsing 15).ivlen = 15 := by decide

/-- A first byte that raises nothing, and one that raises. -/
theorem witness_DataCommandGoesByteByByte :
    ((parsing 15).errcode = none ∧ (parsing 15).phase ≠ .idle ∧
      ∃ t, exec (.data1 0x0f) (parsing 15) = .next t ∧ t.errcode = none) ∧
    (exhausted.errcode = none ∧ exhausted.phase ≠ .idle ∧
      ∃ t, exec (.data1 0x00) exhausted = .next t ∧ t.errcode = some .keystreamExhausted) :=
  ⟨⟨by decide, by decide, of_nextOf (f := fun t => t.errcode) (by decide)⟩,
    by decide, by decide, of_nextOf (f := fun t => t.errcode) (by decide)⟩

theorem witness_DataWithoutSession :
    dataBytes (.data2 1 2) = some [1, 2] ∧ (keyed.errcode = none ∧ keyed.phase = .idle) ∧ errored.errcode ≠ none := by
  decide

theorem witness_ExhaustedStreamRaises :
    dataBytes (.data1 0) = some [0] ∧ exhausted.errcode = none ∧ exhausted.phase = .stream ∧ exhausted.exh = true := by
  decide

/-- Two splits of four bytes, the first crossing the end of the IV. -/
theorem witness_ChunkInvariance :
    dataStream [.data3 1 2 3, .data1 4] = some [1, 2, 3, 4] ∧ dataStream [.data2 1 2, .data2 3 4] = some [1, 2, 3, 4] ∧
    (parsing 14).phase ≠ .idle ∧
    ∃ t, runCommands [.data3 1 2 3, .data1 4] (parsing 14) = .next t ∧ t.errcode = none :=
  ⟨by decide, by decide, by decide, of_nextOf (f := fun t => t.errcode) (by decide)⟩

/-- A stream at its start, fed 0 and 17 bytes. -/
theorem witness_StreamClosedForm :
    dataStream [] = some [] ∧
    dataStream (bytesCommands (List.replicate 17 0x5a)) = some (List.replicate 17 0x5a) ∧
    (List.replicate 17 (0x5a : Byte)).length ≤ 2 ^ 68 ∧ (live 0).errcode = none ∧ (live 0).phase = .stream ∧
    (live 0).ctr = ctr0 (live 0) ∧ (live 0).offset = 0 ∧ (live 0).exh = false := by decide

/-- V22's byte, and the byte that turns it back. -/
theorem witness_StreamInvolution :
    dataStream [.data1 0x00] = some [0x00] ∧ dataStream [.data1 0x53] = some [0x53] ∧
    ((live 0).errcode = none ∧ (live 0).phase = .stream ∧ (live 0).exh = false) ∧
    (live 0).ctr = ctr0 (live 0) ∧ (live 0).offset = 0 ∧
    ∃ s', runCommands [.data1 0x00] (live 0) = .next s' ∧ s'.out = (live 0).out ++ [0x53] :=
  ⟨by decide, by decide, by decide, by decide, by decide, of_nextOf (f := fun t => t.out) (by decide +kernel)⟩

/-- V30's first byte and V22's, under one key and IV. -/
theorem witness_KeystreamReuse :
    dataStream [.data1 0x01] = some [0x01] ∧ dataStream [.data1 0x00] = some [0x00] ∧
    ((live 0).errcode = none ∧ (live 0).phase = .stream ∧ (live 0).exh = false ∧ (live 0).ctr = ctr0 (live 0) ∧
      (live 0).offset = 0) ∧
    (∃ s', runCommands [.data1 0x01] (live 0) = .next s' ∧ s'.out = (live 0).out ++ [0x52]) ∧
    ∃ t', runCommands [.data1 0x00] (live 0) = .next t' ∧ t'.out = (live 0).out ++ [0x53] :=
  ⟨by decide, by decide, by decide, of_nextOf (f := fun t => t.out) (by decide +kernel),
    of_nextOf (f := fun t => t.out) (by decide +kernel)⟩

theorem witness_BothDirectionsDeriveTheHandle :
    dataStream (bytesCommands iv0.toList) = some iv0.toList ∧ keyed.errcode = none ∧ keyed.phase = .idle ∧
    keyed.keylen = 32 ∧ nextAnswer keyed = .bytes iv0 ∧ (parsing 0).errcode = none ∧ (parsing 0).phase = .ivParse ∧
    (parsing 0).ivlen = 0 := by decide

/-- From reset, with the entropy source about to answer IV0. -/
theorem witness_EncryptSequence :
    dataStream [.data3 0x48 0x69 0x21] = some [0x48, 0x69, 0x21] ∧
    ({ State.reset with entropy := [.bytes iv0] } : State).errcode = none ∧
    ({ State.reset with entropy := [.bytes iv0] } : State).phase = .idle ∧
    nextAnswer { State.reset with entropy := [.bytes iv0] } = .bytes iv0 := by decide

/-- An envelope of 16 bytes, one of 17, and one of 15. -/
theorem witness_DecryptSequence :
    State.reset.errcode = none ∧ State.reset.phase = .idle ∧
    dataStream (bytesCommands iv0.toList) = some (iv0.toList ++ []) ∧
    dataStream (bytesCommands (iv0.toList ++ [0x1b])) = some (iv0.toList ++ [0x1b]) ∧
    dataStream (bytesCommands (iv0.toList.take 15)) = some (iv0.toList.take 15) ∧ (iv0.toList.take 15).length < 16 := by
  decide

/-- P2 with one byte: the envelope of 48 is IV0 and 1b. -/
theorem witness_EnvelopeRoundTrip :
    dataStream [.data1 0x48] = some [0x48] ∧
    dataStream (bytesCommands (iv0.toList ++ [0x1b])) = some (iv0.toList ++ [0x1b]) ∧
    (keyed.errcode = none ∧ keyed.phase = .idle ∧ nextAnswer keyed = .bytes iv0) ∧
    ∃ s', runCommands (keyCommands keyA.toList ++ .encstart :: [.data1 0x48] ++ [.endSession]) keyed = .next s' ∧
      s'.out = keyed.out ++ (iv0.toList ++ [0x1b]) :=
  ⟨by decide, by decide, by decide, of_nextOf (f := fun t => t.out) (by decide +kernel)⟩

/-- The three commands that `BYTES/n` may name. -/
theorem witness_BytesLineCarriesItsBytes :
    dataStream (bytesByCommands 1 [1, 2, 3, 4]) = some [1, 2, 3, 4] ∧
    dataStream (bytesByCommands 2 [1, 2, 3]) = some [1, 2, 3] ∧
    dataStream (bytesByCommands 3 [1, 2, 3, 4]) = some [1, 2, 3, 4] := by decide

/-- V10's product 57 • 83 = c1, by the numbers of FieldMultiples: 87 and 131 multiply to 0x2b79, which reduces to c1. -/
theorem witness_FieldMultiples :
    polyProduct 0x57 0x83 8 = 0x2b79 ∧ polyReduce 7 0x2b79 = 0xc1 ∧ (0x57 : Byte).toNat < 128 ∧
    ¬(0x83 : Byte).toNat < 128 := by decide

/-- The ends of the range of full rounds. -/
theorem witness_CipherRounds : (1 ≤ 1 ∧ 1 ≤ 13) ∧ (1 ≤ 13 ∧ 13 ≤ 13) := by decide

/-- The first constant that is made from the one before it. -/
theorem witness_KeyWordHelpers : 2 ≤ 2 ∧ roundConstant 2 = 0x02 := by decide

theorem witness_SboxTableIsTheFormula : (0x01 : Byte) ≠ 0 ∧ (0xff : Byte) ≠ 0 := by decide

/-- The first expanded word of `K = 00 01 .. 1f` (R149's example), and the ends of the range. -/
theorem witness_KeyExpansionRecurrence :
    (8 ≤ 8 ∧ 8 < 60) ∧ (8 ≤ 59 ∧ 59 < 60) ∧
    (keyExpansion (Vector.ofFn fun i => BitVec.ofNat 8 i.val)).getD 8 (Bytes.zero 4) = #v[0xa5, 0x73, 0xc2, 0x9f] := by
  decide +kernel

theorem witness_RegisterMap : 7 ≤ (0x7 : BitVec 4).toNat ∧ 7 ≤ (0xf : BitVec 4).toNat := by decide

theorem witness_CounterBlockLayout :
    (7 : Fin 16).val < 8 ∧ 8 ≤ (8 : Fin 16).val ∧ (counterBlock (nearEnd 0))[7] = 0x07 ∧
    (counterBlock (nearEnd 0))[15] = 0x04 := by decide

end Sys2Proof.Tests
end

section
/-! PROOFS of the family spec/00_scope.md: the big-endian readings (R11), the step that takes the oldest command word
(R8, R61, R74), the entropy answers in their order (R7, R121). -/

namespace Sys2Proof.Machine

/-! ### Big-endian readings -/

/-- One more byte of a big-endian reading. The reading so far is `c` at bit `k + 8`, so the byte moved up by `k` bits
meets zero bits only, and OR is addition. -/
theorem toNat_or_byte {w : Nat} {a : BitVec w} {c : Nat} (b : Byte) (k : Nat) (hk : k + 8 ≤ w)
    (ha : a.toNat = c * 2 ^ (k + 8)) :
    (a ||| b.setWidth w <<< k).toNat = (c * 2 ^ 8 + b.toNat) * 2 ^ k := by
  have hpow : 2 ^ (k + 8) = 2 ^ 8 * 2 ^ k := by rw [Nat.pow_add, Nat.mul_comm]
  have hlt : b.toNat * 2 ^ k < 2 ^ (k + 8) := hpow ▸ Nat.mul_lt_mul_of_pos_right b.isLt (Nat.two_pow_pos k)
  have hle : 2 ^ (k + 8) ≤ 2 ^ w := Nat.pow_le_pow_right (by decide) hk
  have hb : (b.setWidth w <<< k).toNat = b.toNat * 2 ^ k := by
    have hw : b.toNat < 2 ^ w := b.isLt.trans_le (Nat.pow_le_pow_right (by decide) (by omega))
    rw [BitVec.toNat_shiftLeft, BitVec.toNat_setWidth, Nat.mod_eq_of_lt hw, Nat.shiftLeft_eq,
      Nat.mod_eq_of_lt (hlt.trans_le hle)]
  calc (a ||| b.setWidth w <<< k).toNat
      = 2 ^ (k + 8) * c ||| b.toNat * 2 ^ k := by rw [BitVec.toNat_or, ha, hb, Nat.mul_comm c]
    _ = 2 ^ (k + 8) * c + b.toNat * 2 ^ k := (Nat.two_pow_add_eq_or_of_lt hlt c).symm
    _ = (c * 2 ^ 8 + b.toNat) * 2 ^ k := by rw [hpow]; ring

/-- `BE32` as the sum of its bytes (R11, R67). -/
theorem be32_toNat (b : Bytes 4) :
    (be32 b).toNat = b[0].toNat * 2 ^ 24 + b[1].toNat * 2 ^ 16 + b[2].toNat * 2 ^ 8 + b[3].toNat := by
  have h0 := toNat_or_byte (a := 0#32) (c := 0) b[0] 24 (by decide) (by simp)
  have h1 := toNat_or_byte b[1] 16 (by decide) h0
  have h2 := toNat_or_byte b[2] 8 (by decide) h1
  have h3 := toNat_or_byte b[3] 0 (by decide) h2
  simp only [BitVec.zero_or, BitVec.shiftLeft_zero] at h3
  rw [be32, h3]
  ring

/-- `BE64` as the sum of its bytes (R11, R64). -/
theorem be64_toNat (b : Bytes 8) :
    (be64 b).toNat = b[0].toNat * 2 ^ 56 + b[1].toNat * 2 ^ 48 + b[2].toNat * 2 ^ 40 + b[3].toNat * 2 ^ 32 +
      b[4].toNat * 2 ^ 24 + b[5].toNat * 2 ^ 16 + b[6].toNat * 2 ^ 8 + b[7].toNat := by
  have h0 := toNat_or_byte (a := 0#64) (c := 0) b[0] 56 (by decide) (by simp)
  have h1 := toNat_or_byte b[1] 48 (by decide) h0
  have h2 := toNat_or_byte b[2] 40 (by decide) h1
  have h3 := toNat_or_byte b[3] 32 (by decide) h2
  have h4 := toNat_or_byte b[4] 24 (by decide) h3
  have h5 := toNat_or_byte b[5] 16 (by decide) h4
  have h6 := toNat_or_byte b[6] 8 (by decide) h5
  have h7 := toNat_or_byte b[7] 0 (by decide) h6
  simp only [BitVec.zero_or, BitVec.shiftLeft_zero] at h7
  rw [be64, h7]
  ring

/-- Byte `i` of `BE64bytes(v)` is the base-256 digit of weight `256 ^ (7 - i)` (R11, R65). -/
theorem be64Bytes_getElem_toNat (v : BitVec 64) (i : Nat) (h : i < 8) :
    ((be64Bytes v)[i]).toNat = v.toNat / 2 ^ (8 * (7 - i)) % 2 ^ 8 := by
  simp [be64Bytes, Nat.shiftRight_eq_div_pow]

/-- The digits of `v` sum up to `v` (R11). -/
@[simp] theorem be64_be64Bytes (v : BitVec 64) : be64 (be64Bytes v) = v := by
  apply BitVec.eq_of_toNat_eq
  rw [be64_toNat]
  simp only [be64Bytes_getElem_toNat]
  have := v.isLt
  omega

/-- A string is the digits of its own sum (R11). -/
@[simp] theorem be64Bytes_be64 (b : Bytes 8) : be64Bytes (be64 b) = b := by
  ext1 i hi
  apply BitVec.eq_of_toNat_eq
  rw [be64Bytes_getElem_toNat, be64_toNat]
  have h0 := b[0].isLt
  have h1 := b[1].isLt
  have h2 := b[2].isLt
  have h3 := b[3].isLt
  have h4 := b[4].isLt
  have h5 := b[5].isLt
  have h6 := b[6].isLt
  have h7 := b[7].isLt
  interval_cases i <;> omega

/-- Settles O52: the sums byte by byte from `toNat_or_byte`, the inverses by reading digits off them. -/
theorem bigEndianValues : Obligations.BigEndianValues :=
  ⟨be64_toNat, be32_toNat, be64_be64Bytes, be64Bytes_be64⟩

/-! ### The oldest event -/

/-- A step takes the oldest pending event off the list and handles it on the state without it (R72, R74). -/
theorem step_of_pending_cons {s : State} {e : PortEvent} {rest : List PortEvent} (h : s.pending = e :: rest) :
    step s = takeEvent e { s with pending := rest } := by
  simp only [step, takeNextEvent, h]

/-- A word that decodes is executed as the command it decodes to (R85). -/
theorem execWord_of_decode {w : Word} {i : Instr} (h : decode w = .ok i) (s : State) : execWord w s = exec i s := by
  simp only [execWord, h]

/-- Settles O7: the event is consumed first, then its word is decoded and executed. -/
theorem stepRunsDecodedCommand : Obligations.StepRunsDecodedCommand := by
  intro s w rest i hp hd
  calc step s = takeEvent (.command w) { s with pending := rest } := step_of_pending_cons hp
    _ = execWord w { s with pending := rest } := rfl
    _ = exec i { s with pending := rest } := execWord_of_decode hd _

/-! ### Entropy answers -/

/-- The oldest answer fixed by the environment is the next one given (R121). -/
theorem nextAnswer_of_entropy_cons {s : State} {a : EntropyAnswer} {rest : List EntropyAnswer}
    (h : s.entropy = a :: rest) : nextAnswer s = a := by
  rw [nextAnswer, h, List.headD_cons]

/-- Settles O19: a request reads the head of the list and leaves its tail. -/
theorem entropyAnswersInOrder : Obligations.EntropyAnswersInOrder := by
  intro s a rest h
  have hrest : (takeAnswer s).entropy = rest := by rw [takeAnswer_entropy, h, List.tail_cons]
  exact ⟨nextAnswer_of_entropy_cons h, hrest⟩

end Sys2Proof.Machine
end

section
/-! PROOFS of the family spec/10_state.md, first part: what one step can do to the state, as one inductive relation, and
the invariants that follow from it (R29, R34, R37, R174, R175). -/

namespace Sys2Proof.Machine

/-! ### What one step can do -/

/-- What one data byte can do to the state of an open session (R122, R173, R175, R176). -/
inductive ByteEffect (s : State) : State → Prop
  | ivByte (b : Byte) (hp : s.phase = .ivParse) : ByteEffect s (ingestIVByte b s)
  | dataByte (b : Byte) (hp : s.phase = .stream) (hx : s.exh = false) : ByteEffect s (transformByte b s)
  | exhausted (hp : s.phase = .stream) (hx : s.exh = true) : ByteEffect s (raise .keystreamExhausted s)

/-- What one port event can do to the state, each effect with the checks it has passed (R8, R252, R253). -/
inductive StepEffect (s : State) : State → Prop
  | stay : StepEffect s s
  | drop (he : s.errcode ≠ none) : StepEffect s (dropWord s)
  | acknowledge : StepEffect s (acknowledge s)
  | reset : StepEffect s (resetState s)
  | clearKey (he : s.errcode = none) : StepEffect s (clearKey s)
  | keyByte (b : Byte) (he : s.errcode = none) : StepEffect s (appendKeyByte b s)
  | raise (e : EngineError) (he : s.errcode = none) : StepEffect s (raise e s)
  | entropyFailed (he : s.errcode = none) (hp : s.phase = .idle) (hk : s.keylen = 32)
      (ha : nextAnswer s = .fail) : StepEffect s (Machine.raise .entropyFailure (takeAnswer s))
  | beginEncrypt (v : Block) (he : s.errcode = none) (hp : s.phase = .idle) (hk : s.keylen = 32)
      (ha : nextAnswer s = .bytes v) : StepEffect s (beginEncrypt v (takeAnswer s))
  | beginDecrypt (he : s.errcode = none) (hp : s.phase = .idle) (hk : s.keylen = 32) : StepEffect s (beginDecrypt s)
  | clearSession (he : s.errcode = none) : StepEffect s (clearSession s)
  | bytes {t : State} (he : s.errcode = none) (hp : s.phase ≠ .idle) (h : Relation.ReflTransGen ByteEffect s t) :
      StepEffect s t
  | read (a : BitVec 4) : StepEffect s (serveRead a s)

/-- The bytes of a DATA command act one after another. -/
theorem processBytes_byteEffects (bs : List Byte) (s : State) :
    Relation.ReflTransGen ByteEffect s (processBytes bs s) := by
  induction bs generalizing s with
  | nil => exact .refl
  | cons b bs ih =>
    cases hp : s.phase with
    | idle =>
      have hb : processByte b s = .goOn s := by simp [processByte, hp]
      rw [processBytes_goOn hb]
      exact ih s
    | ivParse =>
      rw [processBytes_goOn (processByte_parsing b hp)]
      exact .head (.ivByte b hp) (ih _)
    | stream =>
      cases hx : s.exh with
      | false =>
        rw [processBytes_goOn (processByte_stream b hp hx)]
        exact .head (.dataByte b hp hx) (ih _)
      | true =>
        rw [processBytes_raised (processByte_exhausted b hp hx)]
        exact .single (.exhausted hp hx)

/-- The filter of R252: what `f` can do outside the error state, or a drop in it. -/
theorem unlessError_effect {f : State → State} {s : State} (h : s.errcode = none → StepEffect s (f s)) :
    StepEffect s (unlessError f s) := by
  obtain ⟨he, hf⟩ | ⟨he, hf⟩ := unlessError_cases f s <;> rw [hf]
  · exact h he
  · exact .drop he

theorem openEncrypt_effect {s : State} (he : s.errcode = none) : StepEffect s (openEncrypt s) := by
  obtain ⟨-, h⟩ | ⟨-, -, h⟩ | ⟨hp, hk, ha, h⟩ | ⟨hp, hk, v, ha, h⟩ := openEncrypt_cases s <;> rw [h]
  · exact .raise _ he
  · exact .raise _ he
  · exact .entropyFailed he hp ((keyValid_iff s).mp hk) ha
  · exact .beginEncrypt v he hp ((keyValid_iff s).mp hk) ha

theorem openDecrypt_effect {s : State} (he : s.errcode = none) : StepEffect s (openDecrypt s) := by
  obtain ⟨-, h⟩ | ⟨-, -, h⟩ | ⟨hp, hk, h⟩ := openDecrypt_cases s <;> rw [h]
  · exact .raise _ he
  · exact .raise _ he
  · exact .beginDecrypt he hp ((keyValid_iff s).mp hk)

theorem closeSession_effect {s : State} (he : s.errcode = none) : StepEffect s (closeSession s) := by
  obtain ⟨-, h⟩ | ⟨-, h⟩ | ⟨-, h⟩ := closeSession_cases s <;> rw [h]
  · exact .raise _ he
  · exact .raise _ he
  · exact .clearSession he

theorem transferData_effect (bs : List Byte) {s : State} (he : s.errcode = none) :
    StepEffect s (transferData bs s) := by
  by_cases hp : s.phase = .idle
  · rw [transferData_idle bs hp]
    exact .raise _ he
  · rw [transferData_open bs hp]
    exact .bytes he hp (processBytes_byteEffects bs s)

theorem command_effect (i : Instr) (s : State) : StepEffect s (effect i s) := by
  cases i with
  | nop => exact .stay
  | errclr => exact .acknowledge
  | sreset => exact .reset
  | kclr => exact unlessError_effect .clearKey
  | kbyte b => exact unlessError_effect (.keyByte b)
  | encstart => exact unlessError_effect openEncrypt_effect
  | decstart => exact unlessError_effect openDecrypt_effect
  | endSession => exact unlessError_effect closeSession_effect
  | abort => exact unlessError_effect .clearSession
  | data1 d0 => exact unlessError_effect (transferData_effect _)
  | data2 d0 d1 => exact unlessError_effect (transferData_effect _)
  | data3 d0 d1 d2 => exact unlessError_effect (transferData_effect _)

/-- A step takes the event off the list and then has one effect (R74). -/
theorem step_effect {s t : State} (h : step s = .next t) : ∃ rest, StepEffect { s with pending := rest } t := by
  obtain ⟨-, hs⟩ | ⟨w, rest, i, -, -, hs⟩ | ⟨w, rest, e, -, -, hs⟩ | ⟨a, rest, -, hs⟩ | ⟨rest, -, hs⟩ :=
    step_cases s <;> rw [hs] at h <;> cases h
  · exact ⟨s.pending, .stay⟩
  · exact ⟨rest, command_effect i _⟩
  · exact ⟨rest, unlessError_effect (.raise _)⟩
  · exact ⟨rest, .read a⟩
  · exact ⟨rest, .reset⟩

/-- What each byte keeps, the bytes of a DATA command keep. -/
theorem byteEffects_keep {P : State → Prop} (hP : ∀ {u v}, P u → ByteEffect u v → P v) {s t : State} (hs : P s)
    (h : Relation.ReflTransGen ByteEffect s t) : P t := by
  induction h with
  | refl => exact hs
  | tail _ hb ih => exact hP ih hb

/-- Everything a transformed byte does, in one update (R173–R175). -/
theorem transformByte_eq (b : Byte) (s : State) :
    transformByte b s = { s with
      out := s.out ++ [b ^^^ keystreamByte s],
      offset := s.offset + 1,
      ctr := if s.offset = 15 then s.ctr + 1 else s.ctr,
      exh := if s.offset = 15 ∧ s.ctr + 1 = ctr0 s then true else s.exh } := by
  rw [transformByte, advance_eq]
  rfl

/-! ### The invariants of a reachable state (R37) -/

/-- A zeroed session needs only the clauses about KEYBUF and DROPPED (R205). -/
theorem inv_clearSession {s : State}
    (hkey : s.keylen.toNat ≤ 63 ∧ ∀ i : Fin 32, min s.keylen.toNat 32 ≤ i.val → s.keybuf[i] = 0)
    (hdrop : s.dropped = true → s.errcode ≠ none) : (clearSession s).Inv where
  idle _ := ⟨rfl, rfl, rfl, rfl, rfl, rfl, rfl⟩
  parsing hp := by cases hp
  streaming hp := by cases hp
  errorIdle _ := rfl
  key := hkey
  droppedError := hdrop

theorem inv_raise (e : EngineError) {s : State} (h : s.Inv) : (raise e s).Inv :=
  inv_clearSession h.key fun _ => by simp

theorem zero_getElem {n : Nat} (i : Fin n) : (Bytes.zero n)[i] = 0 := by simp [Bytes.zero]

theorem inv_resetState (s : State) : (resetState s).Inv where
  idle _ := ⟨rfl, rfl, rfl, rfl, rfl, rfl, rfl⟩
  parsing hp := by cases hp
  streaming hp := by cases hp
  errorIdle _ := rfl
  key := ⟨Nat.zero_le _, fun i _ => zero_getElem i⟩
  droppedError hd := by cases hd

theorem inv_dropWord {s : State} (h : s.Inv) (he : s.errcode ≠ none) : (dropWord s).Inv :=
  { h with droppedError := fun _ => he }

theorem inv_acknowledge {s : State} (h : s.Inv) : (acknowledge s).Inv :=
  { h with
    errorIdle := fun he => absurd rfl he
    droppedError := fun hd => by cases hd }

theorem inv_clearKey {s : State} (h : s.Inv) : (clearKey s).Inv :=
  { h with key := ⟨Nat.zero_le _, fun i _ => zero_getElem i⟩ }

/-- A key byte is stored right above the bytes supplied before it (R102). -/
theorem inv_appendKeyByte (b : Byte) {s : State} (h : s.Inv) : (appendKeyByte b s).Inv := by
  obtain ⟨hlen, hzero⟩ := h.key
  refine { h with key := ⟨?_, fun i hi => ?_⟩ }
  · rw [appendKeyByte_keylen, bumpKeylen_toNat]
    omega
  · rw [appendKeyByte_keylen, bumpKeylen_toNat] at hi
    have hi' : s.keylen.toNat ≠ i.val := by omega
    rw [appendKeyByte_keybuf]
    split
    · rw [Fin.getElem_fin, Vector.getElem_setIfInBounds_ne _ hi']
      exact hzero i (by omega)
    · exact hzero i (by omega)

theorem inv_beginEncrypt (v : Block) {s : State} (h : s.Inv) (he : s.errcode = none) : (beginEncrypt v s).Inv where
  idle hp := by cases hp
  parsing hp := by cases hp
  streaming _ := rfl
  errorIdle hne := absurd he hne
  key := h.key
  droppedError := h.droppedError

theorem inv_beginDecrypt {s : State} (h : s.Inv) (he : s.errcode = none) : (beginDecrypt s).Inv where
  idle hp := by cases hp
  parsing _ := ⟨rfl, Nat.zero_le _, fun i _ => zero_getElem i, rfl, rfl, rfl⟩
  streaming hp := by cases hp
  errorIdle hne := absurd he hne
  key := h.key
  droppedError := h.droppedError

/-- An open session is never in the error state, by clause (d). -/
theorem errcode_none_of_open {s : State} (h : s.Inv) (hp : s.phase ≠ .idle) : s.errcode = none := by
  by_contra he
  exact hp (h.errorIdle he)

/-- The IV bytes fill up from below; the 16th makes the IV whole (R122). -/
theorem inv_ingestIVByte (b : Byte) {s : State} (h : s.Inv) (hp : s.phase = .ivParse) : (ingestIVByte b s).Inv := by
  have he := errcode_none_of_open h (by simp [hp])
  obtain ⟨hdir, hlen, hzero, hctr, hoff, hexh⟩ := h.parsing hp
  obtain ⟨hfull, heq⟩ | ⟨hpart, heq⟩ := ingestIVByte_cases b s <;> rw [heq]
  · exact
      { idle := fun hi => by cases hi
        parsing := fun hi => by cases hi
        streaming := fun _ => hfull
        errorIdle := fun hne => absurd he hne
        key := h.key
        droppedError := h.droppedError }
  · have hlen' : (s.ivlen + 1).toNat = s.ivlen.toNat + 1 := by bv_omega
    have hle : (s.ivlen + 1).toNat ≤ 15 := by
      have : (s.ivlen + 1).toNat ≠ 16 := fun hc => hpart (BitVec.eq_of_toNat_eq hc)
      omega
    refine { h with idle := ?_, parsing := fun _ => ⟨hdir, hle, fun i hi => ?_, hctr, hoff, hexh⟩, streaming := ?_ }
    · simp [hp]
    · rw [storeIVByte_ivlen, hlen'] at hi
      rw [storeIVByte_getElem, if_neg (by omega)]
      exact hzero i (by omega)
    · simp [hp]

theorem inv_transformByte (b : Byte) {s : State} (h : s.Inv) (hp : s.phase = .stream) : (transformByte b s).Inv := by
  rw [transformByte_eq]
  exact { h with
    idle := fun hi => by cases hp.symm.trans hi
    parsing := fun hi => by cases hp.symm.trans hi }

theorem inv_byteEffect {s t : State} (h : s.Inv) (hb : ByteEffect s t) : t.Inv := by
  cases hb with
  | ivByte b hp => exact inv_ingestIVByte b h hp
  | dataByte b hp _ => exact inv_transformByte b h hp
  | exhausted _ _ => exact inv_raise _ h

theorem inv_effect {s t : State} (h : s.Inv) (he : StepEffect s t) : t.Inv := by
  have hdraw : (takeAnswer s).Inv := { h with }
  cases he with
  | stay => exact h
  | drop he => exact inv_dropWord h he
  | acknowledge => exact inv_acknowledge h
  | reset => exact inv_resetState s
  | clearKey _ => exact inv_clearKey h
  | keyByte b _ => exact inv_appendKeyByte b h
  | raise e _ => exact inv_raise e h
  | entropyFailed _ _ _ _ => exact inv_raise _ hdraw
  | beginEncrypt v he _ _ _ => exact inv_beginEncrypt v hdraw he
  | beginDecrypt he _ _ => exact inv_beginDecrypt h he
  | clearSession _ => exact inv_clearSession h.key h.droppedError
  | bytes _ _ hb => exact byteEffects_keep inv_byteEffect h hb
  | read a => exact { h with }

/-- Settles O15: each effect of a step keeps the six clauses. -/
theorem stepKeepsInvariants : Obligations.StepKeepsInvariants := by
  intro s t h hst
  obtain ⟨rest, he⟩ := step_effect hst
  have hrest : ({ s with pending := rest } : State).Inv := { h with }
  exact inv_effect hrest he

/-! ### The exhaustion flag (R29) -/

theorem exhInv_of_exh_false {s : State} (h : s.exh = false) : s.ExhInv := fun hx => by
  rw [h] at hx
  cases hx

/-- EXH rises when the counter, one on at the end of a block, meets its start (R174, R175). -/
theorem exhInv_transformByte (b : Byte) {s : State} (hp : s.phase = .stream) (hx : s.exh = false) :
    (transformByte b s).ExhInv := by
  rw [transformByte_eq]
  by_cases hwrap : s.offset = 15 ∧ s.ctr + 1 = ctr0 s
  · obtain ⟨hoff, hctr⟩ := hwrap
    exact fun _ => ⟨hp, (if_pos hoff).trans hctr, by simp [hoff]⟩
  · exact exhInv_of_exh_false (by simp only [if_neg hwrap, hx])

theorem exhInv_byteEffect {s t : State} (h : s.ExhInv) (hb : ByteEffect s t) : t.ExhInv := by
  cases hb with
  | ivByte b hp =>
    have hx : s.exh = false := by
      by_contra hx
      have hstream := (h (by simpa using hx)).1
      cases hp.symm.trans hstream
    obtain ⟨-, heq⟩ | ⟨-, heq⟩ := ingestIVByte_cases b s <;> rw [heq]
    · exact exhInv_of_exh_false rfl
    · exact exhInv_of_exh_false hx
  | dataByte b hp hx => exact exhInv_transformByte b hp hx
  | exhausted _ _ => exact exhInv_of_exh_false rfl

theorem exhInv_effect {s t : State} (h : s.ExhInv) (he : StepEffect s t) : t.ExhInv := by
  cases he with
  | stay => exact h
  | drop _ => exact h
  | acknowledge => exact h
  | reset => exact exhInv_of_exh_false rfl
  | clearKey _ => exact h
  | keyByte _ _ => exact h
  | raise _ _ => exact exhInv_of_exh_false rfl
  | entropyFailed _ _ _ _ => exact exhInv_of_exh_false rfl
  | beginEncrypt _ _ _ _ _ => exact exhInv_of_exh_false rfl
  | beginDecrypt _ _ _ => exact exhInv_of_exh_false rfl
  | clearSession _ => exact exhInv_of_exh_false rfl
  | bytes _ _ hb => exact byteEffects_keep exhInv_byteEffect h hb
  | read _ => exact h

/-- Settles O16: each effect of a step keeps EXH to the block boundary where the counter is back at its start. -/
theorem stepKeepsExhaustion : Obligations.StepKeepsExhaustion := by
  intro s t h hst
  obtain ⟨rest, he⟩ := step_effect hst
  have hrest : ({ s with pending := rest } : State).ExhInv := h
  exact exhInv_effect hrest he

/-- Settles O14: power-on is a reset of the state that is all reset values. -/
theorem resetSatisfiesInvariants : Obligations.ResetSatisfiesInvariants :=
  ⟨inv_resetState State.reset, exhInv_of_exh_false rfl⟩

/-! ### The output (R34) -/

theorem out_grows_byteEffect {s t : State} (hb : ByteEffect s t) : s.out <+: t.out := by
  cases hb with
  | ivByte b _ =>
    obtain ⟨-, heq⟩ | ⟨-, heq⟩ := ingestIVByte_cases b s <;> rw [heq] <;> exact List.prefix_rfl
  | dataByte b _ _ =>
    rw [transformByte_eq]
    exact List.prefix_append _ _
  | exhausted _ _ => exact List.prefix_rfl

theorem out_grows_effect {s t : State} (he : StepEffect s t) : s.out <+: t.out := by
  cases he with
  | beginEncrypt v _ _ _ _ => exact List.prefix_append _ v.toList
  | bytes _ _ hb =>
    exact byteEffects_keep (P := fun u => s.out <+: u.out) (fun hu hb => hu.trans (out_grows_byteEffect hb))
      List.prefix_rfl hb
  | _ => exact List.prefix_rfl

/-- Settles O17: each effect of a step leaves OUT as it is or appends to it. -/
theorem outputOnlyGrows : Obligations.OutputOnlyGrows := by
  intro s t hst
  obtain ⟨rest, he⟩ := step_effect hst
  obtain ⟨emitted, h⟩ := out_grows_effect he
  exact ⟨emitted, h.symm⟩

/-! ### The open session (R24, R25, R31, R103) -/

/-- The session of `s` has ended in `t`, or it is open with the key and the direction it had and, in STREAM, the IV. -/
def SessionEndedOrKept (s t : State) : Prop :=
  t.phase = .idle ∨
    t.skey = s.skey ∧ t.dir = s.dir ∧ (s.phase = .stream → t.phase = .stream ∧ t.iv = s.iv ∧ t.ivlen = s.ivlen)

theorem sessionEndedOrKept_refl (s : State) : SessionEndedOrKept s s :=
  .inr ⟨rfl, rfl, fun hp => ⟨hp, rfl, rfl⟩⟩

theorem sessionEndedOrKept_trans {s u t : State} (hu : u.phase ≠ .idle) (h : SessionEndedOrKept s u)
    (h' : SessionEndedOrKept u t) : SessionEndedOrKept s t := by
  obtain ⟨hkey, hdir, hiv⟩ := h.resolve_left hu
  refine h'.imp_right fun ⟨hkey', hdir', hiv'⟩ => ⟨hkey'.trans hkey, hdir'.trans hdir, fun hp => ?_⟩
  obtain ⟨hpu, hivu, hlenu⟩ := hiv hp
  obtain ⟨hpt, hivt, hlent⟩ := hiv' hpu
  exact ⟨hpt, hivt.trans hivu, hlent.trans hlenu⟩

theorem phase_ne_idle_of_byteEffect {s t : State} (hb : ByteEffect s t) : s.phase ≠ .idle := by
  cases hb <;> simp [*]

theorem sessionEndedOrKept_byteEffect {s t : State} (hb : ByteEffect s t) : SessionEndedOrKept s t := by
  cases hb with
  | ivByte b hp =>
    have hs : s.phase ≠ .stream := by simp [hp]
    obtain ⟨-, heq⟩ | ⟨-, heq⟩ := ingestIVByte_cases b s <;> rw [heq] <;>
      exact .inr ⟨rfl, rfl, fun hp' => absurd hp' hs⟩
  | dataByte b hp _ =>
    rw [transformByte_eq]
    exact .inr ⟨rfl, rfl, fun _ => ⟨hp, rfl, rfl⟩⟩
  | exhausted _ _ => exact .inl rfl

theorem sessionEndedOrKept_effect {s t : State} (hs : s.phase ≠ .idle) (he : StepEffect s t) :
    SessionEndedOrKept s t := by
  have hkept := sessionEndedOrKept_refl s
  cases he with
  | stay => exact hkept
  | drop _ => exact hkept
  | acknowledge => exact hkept
  | reset => exact .inl rfl
  | clearKey _ => exact hkept
  | keyByte _ _ => exact hkept
  | raise _ _ => exact .inl rfl
  | entropyFailed _ _ _ _ => exact .inl rfl
  | beginEncrypt _ _ hp _ _ => exact absurd hp hs
  | beginDecrypt _ hp _ => exact absurd hp hs
  | clearSession _ => exact .inl rfl
  | bytes _ _ hb =>
    exact byteEffects_keep (P := SessionEndedOrKept s) (fun hu hb =>
      sessionEndedOrKept_trans (phase_ne_idle_of_byteEffect hb) hu (sessionEndedOrKept_byteEffect hb)) hkept hb
  | read _ => exact hkept

/-- Settles O20: an effect that ends no session leaves its key, its direction and the IV of a live stream. -/
theorem sessionKeepsItsKeyAndIv : Obligations.SessionKeepsItsKeyAndIv := by
  intro s t hst hs ht
  obtain ⟨rest, he⟩ := step_effect hst
  exact (sessionEndedOrKept_effect (s := { s with pending := rest }) hs he).resolve_left ht

end Sys2Proof.Machine
end

section
/-! PROOFS of the family spec/10_state.md, second part: what the keys reach (R44) and what a KEY line leaves in the key
buffer (R22, R23, R90). -/

namespace Sys2Proof.Machine

/-! ### What the keys reach (R44) -/

/-- `s` with other keys in KEYBUF and SKEY. -/
def withKeys (k l : Key) (s : State) : State := { s with keybuf := k, skey := l }

theorem sameButKeys_iff {s t : State} : SameButKeys s t ↔ ∃ k l, t = withKeys k l s :=
  ⟨fun h => ⟨_, _, h⟩, by rintro ⟨k, l, rfl⟩; rfl⟩

/-- An operation that leads states that differ in the keys at most to states that differ in the keys at most. -/
def KeyBlind (f : State → State) : Prop := ∀ k l s, SameButKeys (f s) (f (withKeys k l s))

theorem KeyBlind.sameButKeys {f : State → State} (hf : KeyBlind f) {s t : State} (h : SameButKeys s t) :
    SameButKeys (f s) (f t) := by
  obtain ⟨k, l, rfl⟩ := sameButKeys_iff.mp h
  exact hf k l s

theorem KeyBlind.comp {f g : State → State} (hf : KeyBlind f) (hg : KeyBlind g) : KeyBlind (f ∘ g) :=
  fun k l s => hf.sameButKeys (hg k l s)

/-- A check that reads no key takes the same branch in both states. -/
theorem keyBlind_ite {f g : State → State} (c : State → Prop) [DecidablePred c]
    (hc : ∀ k l s, c (withKeys k l s) ↔ c s) (hf : KeyBlind f) (hg : KeyBlind g) :
    KeyBlind fun s => if c s then f s else g s := by
  intro k l s
  show SameButKeys (if c s then f s else g s) (if c (withKeys k l s) then f (withKeys k l s) else g (withKeys k l s))
  by_cases h : c s
  · rw [if_pos h, if_pos ((hc k l s).mpr h)]
    exact hf k l s
  · rw [if_neg h, if_neg (mt (hc k l s).mp h)]
    exact hg k l s

theorem keyBlind_id : KeyBlind id := fun _ _ _ => rfl
theorem keyBlind_dropWord : KeyBlind dropWord := fun _ _ _ => rfl
theorem keyBlind_acknowledge : KeyBlind acknowledge := fun _ _ _ => rfl
theorem keyBlind_resetState : KeyBlind resetState := fun _ _ _ => rfl
theorem keyBlind_clearSession : KeyBlind clearSession := fun _ _ _ => rfl
theorem keyBlind_raise (e : EngineError) : KeyBlind (raise e) := fun _ _ _ => rfl
theorem keyBlind_clearKey : KeyBlind clearKey := fun _ _ _ => rfl
theorem keyBlind_appendKeyByte (b : Byte) : KeyBlind (appendKeyByte b) := fun _ _ _ => rfl
theorem keyBlind_takeAnswer : KeyBlind takeAnswer := fun _ _ _ => rfl
theorem keyBlind_beginEncrypt (v : Block) : KeyBlind (beginEncrypt v) := fun _ _ _ => rfl
theorem keyBlind_beginDecrypt : KeyBlind beginDecrypt := fun _ _ _ => rfl
theorem keyBlind_serveRead (a : BitVec 4) : KeyBlind (serveRead a) := fun _ _ _ => rfl

theorem keyBlind_unlessError {f : State → State} (hf : KeyBlind f) : KeyBlind (unlessError f) :=
  keyBlind_ite (fun s => inError s = true) (fun _ _ _ => Iff.rfl) keyBlind_dropWord hf

theorem drawAndBegin_of_fail {s : State} (h : nextAnswer s = .fail) :
    drawAndBegin s = raise .entropyFailure (takeAnswer s) := by simp only [drawAndBegin, draw16, h]

theorem drawAndBegin_of_bytes {s : State} {v : Block} (h : nextAnswer s = .bytes v) :
    drawAndBegin s = beginEncrypt v (takeAnswer s) := by simp only [drawAndBegin, draw16, h]

/-- The entropy source answers both states alike (R7, R121). -/
theorem keyBlind_drawAndBegin : KeyBlind drawAndBegin := by
  intro k l s
  have ha' : nextAnswer (withKeys k l s) = nextAnswer s := rfl
  cases ha : nextAnswer s with
  | fail =>
    rw [drawAndBegin_of_fail ha, drawAndBegin_of_fail (ha'.trans ha)]
    exact (keyBlind_raise .entropyFailure).comp keyBlind_takeAnswer k l s
  | bytes v =>
    rw [drawAndBegin_of_bytes ha, drawAndBegin_of_bytes (ha'.trans ha)]
    exact (keyBlind_beginEncrypt v).comp keyBlind_takeAnswer k l s

/-- The checks of a session command read PHASE and KEYLEN, not the key (R100, R253). -/
theorem keyBlind_ofChecks {f : State → State} (hf : KeyBlind f) :
    KeyBlind fun s => if s.phase ≠ .idle then raise .sessionActive s
      else if ¬ keyValid s then raise .invalidKeyLength s else f s :=
  keyBlind_ite (fun s => s.phase ≠ .idle) (fun _ _ _ => Iff.rfl) (keyBlind_raise _)
    (keyBlind_ite (fun s => ¬ keyValid s) (fun _ _ _ => Iff.rfl) (keyBlind_raise _) hf)

theorem keyBlind_openEncrypt : KeyBlind openEncrypt := keyBlind_ofChecks keyBlind_drawAndBegin

theorem keyBlind_openDecrypt : KeyBlind openDecrypt := keyBlind_ofChecks keyBlind_beginDecrypt

theorem keyBlind_closeSession : KeyBlind closeSession := by
  intro k l s
  have hp' : (withKeys k l s).phase = s.phase := rfl
  cases hp : s.phase <;> simp only [closeSession, hp', hp]
  case idle => exact keyBlind_raise _ k l s
  case ivParse => exact keyBlind_raise _ k l s
  case stream => exact keyBlind_clearSession k l s

/-- No command but DATA lets a key reach another field. -/
theorem keyBlind_effect {i : Instr} (h : dataBytes i = none) : KeyBlind (effect i) := by
  cases i with
  | nop => exact keyBlind_id
  | errclr => exact keyBlind_acknowledge
  | sreset => exact keyBlind_resetState
  | kclr => exact keyBlind_unlessError keyBlind_clearKey
  | kbyte b => exact keyBlind_unlessError (keyBlind_appendKeyByte b)
  | encstart => exact keyBlind_unlessError keyBlind_openEncrypt
  | decstart => exact keyBlind_unlessError keyBlind_openDecrypt
  | endSession => exact keyBlind_unlessError keyBlind_closeSession
  | abort => exact keyBlind_unlessError keyBlind_clearSession
  | data1 d0 => cases h
  | data2 d0 d1 => cases h
  | data3 d0 d1 d2 => cases h

/-- An event that is no DATA command is one and the same key-blind operation in every state. -/
theorem takeEvent_keyBlind {e : PortEvent}
    (hdata : ∀ w i, e = .command w → decode w = .ok i → dataBytes i = none) :
    ∃ f, KeyBlind f ∧ ∀ t, takeEvent e t = .next (f t) := by
  cases e with
  | command w =>
    cases hd : decode w with
    | ok i =>
      refine ⟨effect i, keyBlind_effect (hdata w i rfl hd), fun t => ?_⟩
      rw [takeEvent, execWord_of_decode hd, exec_eq]
    | error e =>
      refine ⟨illegalWord, keyBlind_unlessError (keyBlind_raise _), fun t => ?_⟩
      simp only [takeEvent, execWord, hd]
  | readRegister a => exact ⟨serveRead a, keyBlind_serveRead a, fun _ => rfl⟩
  | reset => exact ⟨resetState, keyBlind_resetState, fun _ => rfl⟩

theorem keyBlind_withPending (rest : List PortEvent) : KeyBlind fun s => { s with pending := rest } := fun _ _ _ => rfl

/-- So is a step that executes no DATA command, in every state with the same pending events. -/
theorem step_keyBlind {s : State}
    (hdata : ∀ w rest i, s.pending = .command w :: rest → decode w = .ok i → dataBytes i = none) :
    ∃ f, KeyBlind f ∧ ∀ t : State, t.pending = s.pending → step t = .next (f t) := by
  cases hp : s.pending with
  | nil => exact ⟨id, keyBlind_id, fun t ht => by simp only [step, takeNextEvent, ht, id]⟩
  | cons e rest =>
    obtain ⟨f, hf, heq⟩ := takeEvent_keyBlind fun w i he => hdata w rest i (he ▸ hp)
    refine ⟨_, hf.comp (keyBlind_withPending rest), fun t ht => ?_⟩
    rw [step_of_pending_cons ht, heq]
    rfl

/-- Settles O21: REG(a) reads no key, and every step without DATA is key-blind. -/
theorem keysReachOnlyTheData : Obligations.KeysReachOnlyTheData := by
  constructor
  · intro s t a h
    obtain ⟨k, l, rfl⟩ := sameButKeys_iff.mp h
    rfl
  · intro s t s' hst hdata hstep
    obtain ⟨f, hf, hrun⟩ := step_keyBlind hdata
    obtain rfl : f s = s' := Host.Outcome.next.inj ((hrun s rfl).symm.trans hstep)
    have hpending : t.pending = s.pending := by
      obtain ⟨k, l, rfl⟩ := sameButKeys_iff.mp hst
      rfl
    exact ⟨f t, hrun t hpending, hf.sameButKeys hst⟩

/-! ### The KEY line (R22, R23, R90) -/

/-- `s` with this key buffer and count. -/
def withKeyBuffer (k : Key) (n : BitVec 6) (s : State) : State := { s with keybuf := k, keylen := n }

@[simp] theorem withKeyBuffer_errcode (k : Key) (n : BitVec 6) (s : State) :
    (withKeyBuffer k n s).errcode = s.errcode := rfl

theorem appendKeyByte_withKeyBuffer (b : Byte) (k : Key) (n : BitVec 6) (s : State) :
    appendKeyByte b (withKeyBuffer k n s) =
      withKeyBuffer (if n.toNat < 32 then k.setIfInBounds n.toNat b else k) (bumpKeylen n) s := rfl

/-- KEYLEN after `n` key bytes (R23). -/
def keylenAfter (n : Nat) : BitVec 6 := BitVec.ofNat 6 (min n 63)

@[simp] theorem keylenAfter_toNat (n : Nat) : (keylenAfter n).toNat = min n 63 := by
  rw [keylenAfter, BitVec.toNat_ofNat]
  omega

@[simp] theorem bumpKeylen_keylenAfter (n : Nat) : bumpKeylen (keylenAfter n) = keylenAfter (n + 1) := by
  apply BitVec.eq_of_toNat_eq
  rw [bumpKeylen_toNat, keylenAfter_toNat, keylenAfter_toNat]
  omega

/-- `s` once the bytes `ks` and no others have been supplied as its key. -/
def withLoadedKey (ks : List Byte) (s : State) : State := withKeyBuffer (loadedKey ks) (keylenAfter ks.length) s

@[simp] theorem loadedKey_getElem (ks : List Byte) (i : Nat) (hi : i < 32) : (loadedKey ks)[i] = ks.getD i 0 := by
  simp [loadedKey]

theorem clearKey_eq_withLoadedKey (s : State) : clearKey s = withLoadedKey [] s := by
  have hzero : Bytes.zero 32 = loadedKey [] := by
    ext1 i hi
    simp [Bytes.zero]
  rw [clearKey, hzero]
  rfl

/-- The byte at index `i` of a string with one more byte at its end, zeros after it. -/
theorem getD_append_singleton (ks : List Byte) (b : Byte) (i : Nat) :
    (ks ++ [b]).getD i 0 = if ks.length = i then b else ks.getD i 0 := by
  obtain hlt | rfl | hgt := Nat.lt_trichotomy i ks.length
  · rw [List.getD_append _ _ _ _ hlt, if_neg (by omega)]
  · simp
  · rw [if_neg (by omega), List.getD_eq_default _ _ (by simp; omega), List.getD_eq_default _ _ (by omega)]

/-- One more key byte goes to the next free place, or is only counted when there is none (R102). -/
theorem loadedKey_append_singleton (ks : List Byte) (b : Byte) :
    loadedKey (ks ++ [b]) =
      if min ks.length 63 < 32 then (loadedKey ks).setIfInBounds (min ks.length 63) b else loadedKey ks := by
  ext1 i hi
  rw [loadedKey_getElem, getD_append_singleton]
  split_ifs with hlen hroom hroom
  · rw [Vector.getElem_setIfInBounds, if_pos (by omega)]
  · omega
  · rw [Vector.getElem_setIfInBounds, if_neg (by omega), loadedKey_getElem]
  · rw [loadedKey_getElem]

theorem appendKeyByte_withLoadedKey (b : Byte) (ks : List Byte) (s : State) :
    appendKeyByte b (withLoadedKey ks s) = withLoadedKey (ks ++ [b]) s := by
  rw [withLoadedKey, appendKeyByte_withKeyBuffer, keylenAfter_toNat, ← loadedKey_append_singleton,
    bumpKeylen_keylenAfter, withLoadedKey, List.length_append, List.length_singleton]

/-- The KBYTE commands of `ks` after the bytes `loaded` supply them in order. -/
theorem runCommands_kbytes (ks loaded : List Byte) {s : State} (he : s.errcode = none) :
    runCommands (ks.map .kbyte) (withLoadedKey loaded s) = .next (withLoadedKey (loaded ++ ks) s) := by
  induction ks generalizing loaded with
  | nil => rw [List.append_nil]; rfl
  | cons b ks ih =>
    have hb : effect (.kbyte b) (withLoadedKey loaded s) = withLoadedKey (loaded ++ [b]) s := by
      have he' : (withLoadedKey loaded s).errcode = none := by rw [withLoadedKey, withKeyBuffer_errcode, he]
      rw [effect, unlessError_of_clear _ he', appendKeyByte_withLoadedKey]
    rw [List.map_cons, runCommands_cons, hb, ih, List.append_assoc, List.singleton_append]

/-- Settles O28: KCLR leaves the key of no bytes, and each KBYTE adds its byte. -/
theorem keyLineLoadsTheKey : Obligations.KeyLineLoadsTheKey := by
  intro ks s he
  have hclear : effect .kclr s = withLoadedKey [] s := by
    rw [effect, unlessError_of_clear _ he, clearKey_eq_withLoadedKey]
  rw [keyCommands, runCommands_cons, hclear, runCommands_kbytes ks [] he]
  rfl

end Sys2Proof.Machine
end

section
/-! PROOFS of the family spec/10_state.md, third part: the STATUS word field by field (R39, R43) and the other registers
(R40–R42). -/

namespace Sys2Proof.Machine

/-! ### The fields of STATUS (R39, R43) -/

/-- The word that shows `x` from bit `k` up and zeros elsewhere; `statusWord_eq` builds STATUS from such words. -/
def fieldAt {w : Nat} (k : Nat) (x : BitVec w) : Word := x.setWidth 32 <<< k

theorem statusWord_eq (s : State) :
    statusWord s = fieldAt 0 (phaseCode s.phase) ||| fieldAt 2 (dirCode s.dir) ||| fieldAt 3 (BitVec.ofBool s.exh) |||
      fieldAt 4 (errcodeBits s.errcode) ||| fieldAt 8 (BitVec.ofBool s.dropped) |||
      fieldAt 9 (BitVec.ofBool (errOutput s)) ||| fieldAt 10 s.keylen ||| fieldAt 16 s.offset |||
      fieldAt 20 s.ivlen := by
  simp only [statusWord, fieldAt, BitVec.shiftLeft_zero]

section FieldAt

variable {w : Nat} (x : BitVec w)

/-- A field read at its own place. -/
theorem extractLsb'_fieldAt_same (k : Nat) (h : k + w ≤ 32) : (fieldAt k x).extractLsb' k w = x := by
  ext i hi
  simp [fieldAt, BitVec.getLsbD_eq_getElem hi, show k + i < 32 by omega]

/-- A field that ends below the bits read shows nothing there. -/
theorem extractLsb'_fieldAt_below (k a n : Nat) (h : k + w ≤ a) : (fieldAt k x).extractLsb' a n = 0 := by
  ext i hi
  have : x.getLsbD (a + i - k) = false := BitVec.getLsbD_of_ge _ _ (by omega)
  simp [fieldAt, this]

/-- A field that begins above the bits read shows nothing there. -/
theorem extractLsb'_fieldAt_above (k a n : Nat) (h : a + n ≤ k) : (fieldAt k x).extractLsb' a n = 0 := by
  ext i hi
  simp [fieldAt, show a + i < k by omega]

end FieldAt

/-- Every field of STATUS stands at its place, clear of all others, and bits [31:25] belong to none. -/
theorem statusWord_fields (s : State) :
    (statusWord s).extractLsb' 0 2 = phaseCode s.phase ∧ (statusWord s).extractLsb' 2 1 = dirCode s.dir ∧
    (statusWord s).extractLsb' 3 1 = BitVec.ofBool s.exh ∧ (statusWord s).extractLsb' 4 4 = errcodeBits s.errcode ∧
    (statusWord s).extractLsb' 8 1 = BitVec.ofBool s.dropped ∧
    (statusWord s).extractLsb' 9 1 = BitVec.ofBool (errOutput s) ∧
    (statusWord s).extractLsb' 10 6 = s.keylen ∧ (statusWord s).extractLsb' 16 4 = s.offset ∧
    (statusWord s).extractLsb' 20 5 = s.ivlen ∧ (statusWord s).extractLsb' 25 7 = 0 := by
  refine ⟨?_, ?_, ?_, ?_, ?_, ?_, ?_, ?_, ?_, ?_⟩ <;>
    simp (disch := decide) [statusWord_eq, BitVec.extractLsb'_or, extractLsb'_fieldAt_same,
      extractLsb'_fieldAt_below, extractLsb'_fieldAt_above]

/-- A field of one bit, read as a bit. -/
theorem getLsbD_of_extractLsb'_one {u : Word} {k : Nat} {b : Bool} (h : u.extractLsb' k 1 = BitVec.ofBool b) :
    u.getLsbD k = b := by
  have := congrArg (fun v : BitVec 1 => v.getLsbD 0) h
  simpa using this

theorem readReg_status (s : State) : readReg s 0 = statusWord s := rfl

/-- The `err` output is 1 exactly while ERRCODE is not 0: no error has code 0 (R250, R255). -/
theorem errOutput_iff (s : State) : errOutput s = true ↔ errcodeBits s.errcode ≠ 0 := by
  rw [errOutput, inError]
  cases s.errcode with
  | none => decide
  | some e => cases e <;> decide

theorem readReg_reset (a : BitVec 4) : readReg State.reset a = 0 := by
  revert a
  decide

/-- Settles O50: the codes are those of the definitions, and each field is read at its place by `statusWord_fields`. -/
theorem statusFields : Obligations.StatusFields := by
  refine ⟨readReg_reset 0, ⟨rfl, rfl, rfl⟩, ⟨rfl, rfl⟩, ⟨rfl, rfl, rfl, rfl, rfl, rfl, rfl, rfl⟩, fun s => ?_⟩
  rw [readReg_status]
  obtain ⟨hphase, hdir, hexh, herr, hdrop, hout, hkey, hoff, hiv, hres⟩ := statusWord_fields s
  exact ⟨hphase, hdir, getLsbD_of_extractLsb'_one hexh, herr, getLsbD_of_extractLsb'_one hdrop,
    getLsbD_of_extractLsb'_one hout, errOutput_iff s, hkey, hoff, hiv, hres⟩

/-! ### The counter, nonce and IV counter registers (R40–R43) -/

@[simp] theorem slice_getElem {n : Nat} (b : Bytes n) (a m : Nat) (h : a + m ≤ n) (i : Nat) (hi : i < m) :
    (slice b a m h)[i] = b[a + i] := by simp [slice]

/-- The two halves of a 64-bit value make it up (R40). -/
theorem halves_toNat (v : BitVec 64) :
    (v.extractLsb' 32 32).toNat * 2 ^ 32 + (v.extractLsb' 0 32).toNat = v.toNat := by
  simp only [BitVec.extractLsb'_toNat, Nat.shiftRight_eq_div_pow]
  omega

/-- Two 4-byte readings side by side are the 8-byte reading (R11, R41, R42). -/
theorem be32_slices_toNat {n : Nat} (b : Bytes n) (a : Nat) (h : a + 8 ≤ n) :
    (be32 (slice b a 4)).toNat * 2 ^ 32 + (be32 (slice b (a + 4) 4)).toNat = (be64 (slice b a 8)).toNat := by
  simp only [be32_toNat, be64_toNat, slice_getElem, Nat.add_assoc]
  ring

/-- Addresses 0x7 to 0xF are reserved (R43). -/
theorem readReg_reserved (s : State) {a : BitVec 4} (h : 7 ≤ a.toNat) : readReg s a = 0 := by
  obtain ⟨k, hk⟩ := Nat.exists_eq_add_of_le' h
  rw [readReg, hk]
  rfl

/-- Settles O51: each register pair makes up its 64-bit value. -/
theorem registerMap : Obligations.RegisterMap := by
  refine ⟨readReg_reset, fun s => ⟨halves_toNat s.ctr, be32_slices_toNat s.iv 0 (by decide),
    be32_slices_toNat s.iv 8 (by decide), fun a h => readReg_reserved s h, ?_⟩⟩
  obtain ⟨-, -, -, -, -, -, -, -, -, hres⟩ := statusWord_fields s
  exact hres

end Sys2Proof.Machine
end

section
/-! PROOFS of the family spec/20_memory.md: the register read (R63, R71, R233), the layout of the counter block (R65,
R170), the entropy requests (R71, R104, R121). -/

namespace Sys2Proof.Machine

/-! ### The register read (R63, R71, R233) -/

/-- No register shows what waits in `pending`, so the read sees the same word before and after it is taken. -/
theorem readReg_withPending (s : State) (rest : List PortEvent) (a : BitVec 4) :
    readReg { s with pending := rest } a = readReg s a := rfl

/-- Settles O10: the read is taken off the list and served. -/
theorem registerReadChangesNothing : Obligations.RegisterReadChangesNothing := by
  intro s a rest hp
  calc step s = takeEvent (.readRegister a) { s with pending := rest } := step_of_pending_cons hp
    _ = .next (serveRead a { s with pending := rest }) := rfl
    _ = .next { s with pending := rest, readback := s.readback ++ [readReg s a] } := by
      rw [serveRead, readReg_withPending]

/-! ### The counter block (R65, R170) -/

theorem joinHalves_getElem_left (a b : Bytes 8) {i : Nat} (h : i < 8) : (joinHalves a b)[i] = a[i] := by
  simp [joinHalves, h]

theorem joinHalves_getElem_right (a b : Bytes 8) {i : Nat} (h : 8 ≤ i) (hi : i < 16) :
    (joinHalves a b)[i] = b[i - 8] := by
  simp [joinHalves, Nat.not_lt.mpr h]

theorem counterBlock_getElem_nonce (s : State) {i : Nat} (h : i < 8) : (counterBlock s)[i] = s.iv[i] := by
  rw [counterBlock, joinHalves_getElem_left _ _ h]
  simp [nonce]

/-- Byte `8 + j` is the digit of weight `256 ^ (7 - j)`, that is `256 ^ (15 - i)` at index `i` of the block. -/
theorem counterBlock_getElem_counter (s : State) {i : Nat} (h : 8 ≤ i) (hi : i < 16) :
    ((counterBlock s)[i]).toNat = s.ctr.toNat / 2 ^ (8 * (15 - i)) % 2 ^ 8 := by
  have hweight : 7 - (i - 8) = 15 - i := by omega
  rw [counterBlock, joinHalves_getElem_right _ _ h hi, be64Bytes_getElem_toNat, hweight]

/-- Settles O53: each half of the block is read on its own. -/
theorem counterBlockLayout : Obligations.CounterBlockLayout :=
  fun s i => ⟨counterBlock_getElem_nonce s, fun h => counterBlock_getElem_counter s h i.isLt⟩

/-! ### The word of ENCSTART (R81, R85) -/

theorem requireReserved_eq_ok_iff {ok : Bool} {w : Word} {i j : Instr} :
    requireReserved ok w i = .ok j ↔ ok = true ∧ i = j := by
  cases ok <;> simp [requireReserved]

/-- A word of format Z is its opcode byte followed by 24 zero bits (R81). -/
theorem toNat_of_formatZOk {w : Word} (h : formatZOk w = true) : w.toNat = (opcodeOf w).toNat * 2 ^ 24 := by
  have hlow : (w.extractLsb' 0 24).toNat = 0 := congrArg BitVec.toNat (eq_of_beq h)
  have hw := w.isLt
  simp only [BitVec.extractLsb'_toNat, Nat.shiftRight_eq_div_pow] at hlow
  simp only [opcodeOf, BitVec.extractLsb'_toNat, Nat.shiftRight_eq_div_pow]
  omega

/-- Only the row of opcode 0x20 gives ENCSTART, and its reserved bits leave one word. -/
theorem eq_of_decode_encstart {w : Word} (h : decode w = .ok .encstart) : w = 0x20000000 := by
  unfold decode at h
  split at h <;> simp only [requireReserved_eq_ok_iff, reduceCtorEq, and_false, and_true, Except.ok.injEq] at h
  next hop =>
    apply BitVec.eq_of_toNat_eq
    rw [toNat_of_formatZOk h, hop]
    rfl

/-! ### Entropy requests (R71, R104, R121) -/

/-- From `s` to `t` the entropy port was left alone. -/
def NoRequest (s t : State) : Prop := t.draws = s.draws ∧ t.entropy = s.entropy

/-- From `s` to `t` there was one request, and it used up one answer. -/
def OneRequest (s t : State) : Prop := t.draws = s.draws + 1 ∧ t.entropy = s.entropy.tail

theorem noRequest_refl (s : State) : NoRequest s s := ⟨rfl, rfl⟩

theorem noRequest_trans {s u t : State} (h : NoRequest s u) (h' : NoRequest u t) : NoRequest s t :=
  ⟨h'.1.trans h.1, h'.2.trans h.2⟩

theorem noRequest_raise (e : EngineError) (s : State) : NoRequest s (raise e s) := ⟨rfl, rfl⟩

/-- A drop in the error state requests nothing, so only what passes the filter can (R252). -/
theorem noRequest_unlessError {f : State → State} {s : State} (h : NoRequest s (f s)) :
    NoRequest s (unlessError f s) := by
  obtain ⟨-, hf⟩ | ⟨-, hf⟩ := unlessError_cases f s <;> rw [hf]
  · exact h
  · exact noRequest_refl s

theorem noRequest_byteEffect {s t : State} (hb : ByteEffect s t) : NoRequest s t := by
  cases hb with
  | ivByte b _ => obtain ⟨-, heq⟩ | ⟨-, heq⟩ := ingestIVByte_cases b s <;> rw [heq] <;> exact ⟨rfl, rfl⟩
  | dataByte b _ _ =>
    rw [transformByte_eq]
    exact ⟨rfl, rfl⟩
  | exhausted _ _ => exact noRequest_raise _ s

theorem noRequest_transferData (bs : List Byte) (s : State) : NoRequest s (transferData bs s) := by
  by_cases hp : s.phase = .idle
  · rw [transferData_idle bs hp]
    exact noRequest_raise _ s
  · rw [transferData_open bs hp]
    exact byteEffects_keep (P := NoRequest s) (fun hu hb => noRequest_trans hu (noRequest_byteEffect hb))
      (noRequest_refl s) (processBytes_byteEffects bs s)

/-- DECSTART takes its IV from the envelope and draws nothing (R104, R202). -/
theorem noRequest_openDecrypt (s : State) : NoRequest s (openDecrypt s) := by
  obtain ⟨-, h⟩ | ⟨-, -, h⟩ | ⟨-, -, h⟩ := openDecrypt_cases s <;> rw [h] <;> exact ⟨rfl, rfl⟩

theorem noRequest_closeSession (s : State) : NoRequest s (closeSession s) := by
  obtain ⟨-, h⟩ | ⟨-, h⟩ | ⟨-, h⟩ := closeSession_cases s <;> rw [h] <;> exact ⟨rfl, rfl⟩

/-- No command but ENCSTART requests entropy. -/
theorem noRequest_effect {i : Instr} (h : i ≠ .encstart) (s : State) : NoRequest s (effect i s) := by
  cases i with
  | nop => exact noRequest_refl s
  | errclr => exact ⟨rfl, rfl⟩
  | sreset => exact ⟨rfl, rfl⟩
  | kclr => exact noRequest_unlessError ⟨rfl, rfl⟩
  | kbyte b => exact noRequest_unlessError ⟨rfl, rfl⟩
  | encstart => exact absurd rfl h
  | decstart => exact noRequest_unlessError (noRequest_openDecrypt s)
  | endSession => exact noRequest_unlessError (noRequest_closeSession s)
  | abort => exact noRequest_unlessError ⟨rfl, rfl⟩
  | data1 d0 => exact noRequest_unlessError (noRequest_transferData _ s)
  | data2 d0 d1 => exact noRequest_unlessError (noRequest_transferData _ s)
  | data3 d0 d1 d2 => exact noRequest_unlessError (noRequest_transferData _ s)

/-- ENCSTART stops at a failed check without a request; past its checks it makes one, whatever the answer (R104). -/
theorem openEncrypt_request (s : State) :
    NoRequest s (openEncrypt s) ∨ (OneRequest s (openEncrypt s) ∧ s.phase = .idle ∧ s.keylen = 32) := by
  obtain ⟨-, h⟩ | ⟨-, -, h⟩ | ⟨hp, hk, -, h⟩ | ⟨hp, hk, v, -, h⟩ := openEncrypt_cases s <;> rw [h]
  · exact .inl (noRequest_raise _ s)
  · exact .inl (noRequest_raise _ s)
  · exact .inr ⟨⟨rfl, rfl⟩, hp, (keyValid_iff s).mp hk⟩
  · exact .inr ⟨⟨rfl, rfl⟩, hp, (keyValid_iff s).mp hk⟩

theorem encstart_request (s : State) :
    NoRequest s (effect .encstart s) ∨
      (OneRequest s (effect .encstart s) ∧ s.errcode = none ∧ s.phase = .idle ∧ s.keylen = 32) := by
  obtain ⟨he, hf⟩ | ⟨-, hf⟩ := unlessError_cases openEncrypt s <;> rw [effect, hf]
  · exact (openEncrypt_request s).imp_right fun ⟨hdraw, hchecks⟩ => ⟨hdraw, he, hchecks⟩
  · exact .inl (noRequest_refl s)

/-- Settles O18: of all events only the word of ENCSTART can request, and it requests after its checks. -/
theorem entropyOnlyForEncstart : Obligations.EntropyOnlyForEncstart := by
  intro s t hst
  obtain ⟨-, hs⟩ | ⟨w, rest, i, hp, hd, hs⟩ | ⟨w, rest, e, -, -, hs⟩ | ⟨a, rest, -, hs⟩ | ⟨rest, -, hs⟩ :=
    step_cases s <;> rw [hs] at hst <;> cases hst
  · exact .inl (noRequest_refl s)
  · by_cases hi : i = .encstart
    · subst hi
      obtain rfl := eq_of_decode_encstart hd
      refine (encstart_request { s with pending := rest }).imp_right ?_
      rintro ⟨⟨hdraws, hentropy⟩, he, hphase, hkey⟩
      exact ⟨hdraws, hentropy, he, hphase, hkey, rest, hp⟩
    · exact .inl (noRequest_effect hi { s with pending := rest })
  · exact .inl (noRequest_unlessError (noRequest_raise .illegalCommand { s with pending := rest }))
  · exact .inl ⟨rfl, rfl⟩
  · exact .inl ⟨rfl, rfl⟩

end Sys2Proof.Machine
end

section
/-! PROOFS of the family spec/30_encoding.md: the fields of a command word (R80–R87), the opcode map (R85), illegal words
(R86), the assembler (R89–R92). -/

namespace Sys2Proof.Machine

/-! ### The fields of a command word (R80–R85) -/

/-- The opcode, the reserved bits and the operands that R81–R85 read off `w` are those of the command. -/
def HasFields (w : Word) : Instr → Prop
  | .nop => opcodeOf w = 0x00 ∧ formatZOk w = true
  | .errclr => opcodeOf w = 0x01 ∧ formatZOk w = true
  | .sreset => opcodeOf w = 0x02 ∧ formatZOk w = true
  | .kclr => opcodeOf w = 0x10 ∧ formatZOk w = true
  | .kbyte b => opcodeOf w = 0x11 ∧ formatBOk w = true ∧ byteOperand w = b
  | .encstart => opcodeOf w = 0x20 ∧ formatZOk w = true
  | .decstart => opcodeOf w = 0x21 ∧ formatZOk w = true
  | .endSession => opcodeOf w = 0x22 ∧ formatZOk w = true
  | .abort => opcodeOf w = 0x23 ∧ formatZOk w = true
  | .data1 d0 => opcodeOf w = 0x31 ∧ formatD1Ok w = true ∧ dataByte w 1 0 = d0
  | .data2 d0 d1 => opcodeOf w = 0x32 ∧ formatD2Ok w = true ∧ dataByte w 2 0 = d0 ∧ dataByte w 2 1 = d1
  | .data3 d0 d1 d2 => opcodeOf w = 0x33 ∧ dataByte w 3 0 = d0 ∧ dataByte w 3 1 = d1 ∧ dataByte w 3 2 = d2

/-- The decoder reads the fields of R81–R85 and nothing else. -/
theorem decode_eq_ok_iff_hasFields {w : Word} {i : Instr} : decode w = .ok i ↔ HasFields w i := by
  constructor
  · intro h
    unfold decode at h
    split at h <;> simp only [requireReserved_eq_ok_iff, Except.ok.injEq, reduceCtorEq] at h
    -- KBYTE and DATA1 have one operand, DATA2 two, DATA3 three and no reserved bits; the rest are of format Z.
    case h_5 hop | h_10 hop =>
      obtain ⟨hreserved, rfl⟩ := h
      exact ⟨BitVec.eq_of_toNat_eq hop, hreserved, rfl⟩
    case h_11 hop =>
      obtain ⟨hreserved, rfl⟩ := h
      exact ⟨BitVec.eq_of_toNat_eq hop, hreserved, rfl, rfl⟩
    case h_12 hop =>
      subst h
      exact ⟨BitVec.eq_of_toNat_eq hop, rfl, rfl, rfl⟩
    all_goals
      rename_i hop
      obtain ⟨hreserved, rfl⟩ := h
      exact ⟨BitVec.eq_of_toNat_eq hop, hreserved⟩
  · intro h
    cases i with
    | kbyte b | data1 d0 =>
      obtain ⟨hop, hreserved, rfl⟩ := h
      simp [decode, hop, hreserved, requireReserved]
    | data2 d0 d1 =>
      obtain ⟨hop, hreserved, rfl, rfl⟩ := h
      simp [decode, hop, hreserved, requireReserved]
    | data3 d0 d1 d2 =>
      obtain ⟨hop, rfl, rfl, rfl⟩ := h
      simp [decode, hop]
    | _ =>
      obtain ⟨hop, hreserved⟩ := h
      simp [decode, hop, hreserved, requireReserved]

theorem encode_kbyte_eq (b : Byte) : encode (.kbyte b) = fieldAt 24 (0x11 : Byte) ||| fieldAt 0 b := by
  simp [encode, fieldAt]

theorem encode_data1_eq (d0 : Byte) : encode (.data1 d0) = fieldAt 24 (0x31 : Byte) ||| fieldAt 0 d0 := by
  simp [encode, fieldAt]

theorem encode_data2_eq (d0 d1 : Byte) :
    encode (.data2 d0 d1) = fieldAt 24 (0x32 : Byte) ||| fieldAt 8 d0 ||| fieldAt 0 d1 := by simp [encode, fieldAt]

theorem encode_data3_eq (d0 d1 d2 : Byte) :
    encode (.data3 d0 d1 d2) = fieldAt 24 (0x33 : Byte) ||| fieldAt 16 d0 ||| fieldAt 8 d1 ||| fieldAt 0 d2 := by
  simp [encode, fieldAt]

/-- The word of a command shows the opcode and the operands at their places, clear of each other. -/
theorem hasFields_encode (i : Instr) : HasFields (encode i) i := by
  cases i with
  | kbyte _ | data1 _ | data2 _ _ | data3 _ _ _ =>
    simp (disch := decide) [HasFields, opcodeOf, formatBOk, formatD1Ok, formatD2Ok, byteOperand, dataByte,
      encode_kbyte_eq, encode_data1_eq, encode_data2_eq, encode_data3_eq, BitVec.extractLsb'_or,
      extractLsb'_fieldAt_same, extractLsb'_fieldAt_below, extractLsb'_fieldAt_above]
  | _ => exact ⟨rfl, rfl⟩

/-- Settles O2: the decoder reads the fields, and the encoder places them. -/
theorem decodeEncodeRoundTrip : Obligations.DecodeEncodeRoundTrip :=
  fun i => decode_eq_ok_iff_hasFields.mpr (hasFields_encode i)

/-- Two words that agree on two neighbouring fields agree on the field that these make up. -/
theorem extractLsb'_congr_add {v w : Word} {k m n : Nat} (hlow : v.extractLsb' k m = w.extractLsb' k m)
    (hhigh : v.extractLsb' (k + m) n = w.extractLsb' (k + m) n) :
    v.extractLsb' k (m + n) = w.extractLsb' k (m + n) := by
  ext i hi
  by_cases him : i < m
  · simpa [him] using congrArg (·.getLsbD i) hlow
  · obtain ⟨j, rfl⟩ := Nat.exists_eq_add_of_le (Nat.not_lt.mp him)
    simpa [show j < n by omega, Nat.add_assoc] using congrArg (·.getLsbD j) hhigh

/-- Two words that agree on their low 24 bits and on the opcode are one. -/
theorem word_eq_of_opcode {v w : Word} (hlow : v.extractLsb' 0 24 = w.extractLsb' 0 24)
    (hop : opcodeOf v = opcodeOf w) : v = w := by
  simpa using extractLsb'_congr_add hlow hop

/-- The fields of a command leave no bit of its word free (R81–R84). -/
theorem word_eq_of_hasFields {v w : Word} {i : Instr} (hv : HasFields v i) (hw : HasFields w i) : v = w := by
  cases i with
  | kbyte b | data1 d0 =>
    obtain ⟨hvop, hvreserved, hvlow⟩ := hv
    obtain ⟨hwop, hwreserved, hwlow⟩ := hw
    refine word_eq_of_opcode ?_ (hvop.trans hwop.symm)
    exact extractLsb'_congr_add (hvlow.trans hwlow.symm) ((eq_of_beq hvreserved).trans (eq_of_beq hwreserved).symm)
  | data2 d0 d1 =>
    obtain ⟨hvop, hvreserved, hv0, hv1⟩ := hv
    obtain ⟨hwop, hwreserved, hw0, hw1⟩ := hw
    refine word_eq_of_opcode ?_ (hvop.trans hwop.symm)
    exact extractLsb'_congr_add (extractLsb'_congr_add (hv1.trans hw1.symm) (hv0.trans hw0.symm))
      ((eq_of_beq hvreserved).trans (eq_of_beq hwreserved).symm)
  | data3 d0 d1 d2 =>
    obtain ⟨hvop, hv0, hv1, hv2⟩ := hv
    obtain ⟨hwop, hw0, hw1, hw2⟩ := hw
    refine word_eq_of_opcode ?_ (hvop.trans hwop.symm)
    exact extractLsb'_congr_add (extractLsb'_congr_add (hv2.trans hw2.symm) (hv1.trans hw1.symm)) (hv0.trans hw0.symm)
  | _ =>
    obtain ⟨hvop, hvreserved⟩ := hv
    obtain ⟨hwop, hwreserved⟩ := hw
    exact word_eq_of_opcode ((eq_of_beq hvreserved).trans (eq_of_beq hwreserved).symm) (hvop.trans hwop.symm)

/-- Settles O3: the word and the encoding have the same fields. -/
theorem decodedWordIsTheEncoding : Obligations.DecodedWordIsTheEncoding :=
  fun _ i h => word_eq_of_hasFields (hasFields_encode i) (decode_eq_ok_iff_hasFields.mp h)

/-- Settles O1: seven words, each decoded by evaluation. -/
theorem decodeWrittenWords : Obligations.DecodeWrittenWords :=
  ⟨by decide, by decide, by decide, by decide, by decide, by decide, by decide⟩

/-! ### The opcode map (R85) -/

/-- The word of every command satisfies the mask and match of a row with its mnemonic. -/
theorem inOpcodeMap (i : Instr) : Laws.InOpcodeMap.Statement i := by
  cases i with
  | nop => exact Laws.InOpcodeMap.nop
  | errclr => exact Laws.InOpcodeMap.errclr
  | sreset => exact Laws.InOpcodeMap.sreset
  | kclr => exact Laws.InOpcodeMap.kclr
  | kbyte b => exact Laws.InOpcodeMap.kbyte b
  | encstart => exact Laws.InOpcodeMap.encstart
  | decstart => exact Laws.InOpcodeMap.decstart
  | endSession => exact Laws.InOpcodeMap.endSession
  | abort => exact Laws.InOpcodeMap.abort
  | data1 d0 => exact Laws.InOpcodeMap.data1 d0
  | data2 d0 d1 => exact Laws.InOpcodeMap.data2 d0 d1
  | data3 d0 d1 d2 => exact Laws.InOpcodeMap.data3 d0 d1 d2

theorem mnemonics_nodup : (opcodeMap.map OpcodeRow.mnemonic).Nodup := by decide

theorem row_eq_of_mnemonic {r r' : OpcodeRow} (hr : r ∈ opcodeMap) (hr' : r' ∈ opcodeMap)
    (h : r.mnemonic = r'.mnemonic) : r = r' :=
  List.inj_on_of_nodup_map mnemonics_nodup hr hr' h

/-- A word that decodes is matched by the row of its command. -/
theorem exists_row_of_decode {w : Word} {i : Instr} (h : decode w = .ok i) :
    ∃ r ∈ opcodeMap, r.mnemonic = i.mnemonic ∧ r.matchesWord w = true :=
  decodedWordIsTheEncoding w i h ▸ inOpcodeMap i

theorem matchesWord_of_decode {w : Word} {i : Instr} {r : OpcodeRow} (hr : r ∈ opcodeMap) (h : decode w = .ok i)
    (hname : i.mnemonic = r.mnemonic) : r.matchesWord w = true := by
  obtain ⟨r', hr', hname', hmatch⟩ := exists_row_of_decode h
  rwa [row_eq_of_mnemonic hr hr' (hname.symm.trans hname'.symm)]

/-- Where a mask is all ones, a matching word has the bits of the pattern. -/
theorem extractLsb'_of_mask {w mask pattern : Word} {k n : Nat} (h : w &&& mask = pattern)
    (hones : mask.extractLsb' k n = BitVec.allOnes n) : w.extractLsb' k n = pattern.extractLsb' k n := by
  rw [← h, BitVec.extractLsb'_and, hones, BitVec.and_allOnes]

/-- Each row's mask has ones at the opcode and at the reserved bits of the format of the row's command. -/
theorem hasFields_of_matchesWord {w : Word} {r : OpcodeRow} (hr : r ∈ opcodeMap) (hw : r.matchesWord w = true) :
    ∃ i, HasFields w i ∧ i.mnemonic = r.mnemonic := by
  have field {k n : Nat} : r.mask.extractLsb' k n = BitVec.allOnes n → w.extractLsb' k n = r.pattern.extractLsb' k n :=
    extractLsb'_of_mask (eq_of_beq hw)
  simp only [opcodeMap, List.mem_cons, List.not_mem_nil, or_false] at hr
  obtain rfl | rfl | rfl | rfl | rfl | rfl | rfl | rfl | rfl | rfl | rfl | rfl := hr
  · exact ⟨.nop, ⟨field rfl, beq_iff_eq.mpr (field rfl)⟩, rfl⟩
  · exact ⟨.errclr, ⟨field rfl, beq_iff_eq.mpr (field rfl)⟩, rfl⟩
  · exact ⟨.sreset, ⟨field rfl, beq_iff_eq.mpr (field rfl)⟩, rfl⟩
  · exact ⟨.kclr, ⟨field rfl, beq_iff_eq.mpr (field rfl)⟩, rfl⟩
  · exact ⟨.kbyte (byteOperand w), ⟨field rfl, beq_iff_eq.mpr (field rfl), rfl⟩, rfl⟩
  · exact ⟨.encstart, ⟨field rfl, beq_iff_eq.mpr (field rfl)⟩, rfl⟩
  · exact ⟨.decstart, ⟨field rfl, beq_iff_eq.mpr (field rfl)⟩, rfl⟩
  · exact ⟨.endSession, ⟨field rfl, beq_iff_eq.mpr (field rfl)⟩, rfl⟩
  · exact ⟨.abort, ⟨field rfl, beq_iff_eq.mpr (field rfl)⟩, rfl⟩
  · exact ⟨.data1 (dataByte w 1 0), ⟨field rfl, beq_iff_eq.mpr (field rfl), rfl⟩, rfl⟩
  · exact ⟨.data2 (dataByte w 2 0) (dataByte w 2 1), ⟨field rfl, beq_iff_eq.mpr (field rfl), rfl, rfl⟩, rfl⟩
  · exact ⟨.data3 (dataByte w 3 0) (dataByte w 3 1) (dataByte w 3 2), ⟨field rfl, rfl, rfl, rfl⟩, rfl⟩

theorem matchesWord_iff_decode {w : Word} {r : OpcodeRow} (hr : r ∈ opcodeMap) :
    r.matchesWord w = true ↔ ∃ i, decode w = .ok i ∧ i.mnemonic = r.mnemonic := by
  constructor
  · intro hw
    obtain ⟨i, hfields, hname⟩ := hasFields_of_matchesWord hr hw
    exact ⟨i, decode_eq_ok_iff_hasFields.mpr hfields, hname⟩
  · rintro ⟨i, hd, hname⟩
    exact matchesWord_of_decode hr hd hname

/-- Two rows that match one word name the one command it decodes to. -/
theorem row_eq_of_matchesWord {w : Word} {r r' : OpcodeRow} (hr : r ∈ opcodeMap) (hr' : r' ∈ opcodeMap)
    (hw : r.matchesWord w = true) (hw' : r'.matchesWord w = true) : r = r' := by
  obtain ⟨i, hd, hname⟩ := (matchesWord_iff_decode hr).mp hw
  obtain ⟨j, hd', hname'⟩ := (matchesWord_iff_decode hr').mp hw'
  obtain rfl : i = j := Except.ok.inj (hd.symm.trans hd')
  exact row_eq_of_mnemonic hr hr' (hname.symm.trans hname')

/-- A list without repetition in which at most one value satisfies `p` keeps at most one under the filter. -/
theorem length_filter_le_one {α : Type} {p : α → Bool} {l : List α} (hl : l.Nodup)
    (h : ∀ a ∈ l, ∀ b ∈ l, p a = true → p b = true → a = b) : (l.filter p).length ≤ 1 := by
  classical
  rw [← List.toFinset_card_of_nodup (hl.filter p), Finset.card_le_one]
  intro a ha b hb
  obtain ⟨hal, hpa⟩ := List.mem_filter.mp (List.mem_toFinset.mp ha)
  obtain ⟨hbl, hpb⟩ := List.mem_filter.mp (List.mem_toFinset.mp hb)
  exact h a hal b hbl hpa hpb

/-- Settles O4: a row matches by the fields of its command, and no two rows share a mnemonic. -/
theorem decodeFollowsOpcodeMap : Obligations.DecodeFollowsOpcodeMap :=
  fun _ => ⟨fun _ hr => matchesWord_iff_decode hr,
    length_filter_le_one (mnemonics_nodup.of_map _) fun _ hr _ hr' => row_eq_of_matchesWord hr hr'⟩

/-! ### Illegal words (R86, R251, R252) -/

/-- A word that no row matches is illegal (R86). -/
theorem decode_error_of_no_row {w : Word} (h : ∀ r ∈ opcodeMap, r.matchesWord w = false) :
    ∃ e, decode w = .error e := by
  cases hd : decode w with
  | error e => exact ⟨e, rfl⟩
  | ok i =>
    obtain ⟨r, hr, -, hmatch⟩ := exists_row_of_decode hd
    exact absurd hmatch (by simp [h r hr])

/-- A word that does not decode has the effect of an illegal word (R86, R87). -/
theorem execWord_of_decode_error {w : Word} {e : DecodeError} (h : decode w = .error e) (s : State) :
    execWord w s = .next (illegalWord s) := by simp only [execWord, h]

theorem illegalWord_of_clear {s : State} (h : s.errcode = none) : illegalWord s = raise .illegalCommand s :=
  unlessError_of_clear _ h

theorem illegalWord_of_error {s : State} (h : s.errcode ≠ none) : illegalWord s = dropWord s :=
  unlessError_of_error _ h

/-- Settles O8: the word is taken off the list, it does not decode, and the filter decides between error and drop. -/
theorem illegalWordRaises : Obligations.IllegalWordRaises := by
  intro s w rest hp hrows
  obtain ⟨e, hd⟩ := decode_error_of_no_row hrows
  have hstep : step s = .next (illegalWord { s with pending := rest }) :=
    calc step s = takeEvent (.command w) { s with pending := rest } := step_of_pending_cons hp
      _ = execWord w { s with pending := rest } := rfl
      _ = .next (illegalWord { s with pending := rest }) := execWord_of_decode_error hd _
  constructor
  · intro he
    rw [hstep, illegalWord_of_clear (s := { s with pending := rest }) he]
    rfl
  · intro he
    rw [hstep, illegalWord_of_error (s := { s with pending := rest }) he]
    rfl

/-! ### Lines of the assembler (R89–R92) -/

theorem operandOk_iff (n : Nat) : operandOk n = true ↔ n ≤ 255 := by
  rw [operandOk, decide_eq_true_iff, Nat.lt_succ_iff]

theorem all_operandOk_iff (ns : List Nat) : ns.all operandOk = true ↔ ∀ k ∈ ns, k ≤ 255 := by
  simp only [List.all_eq_true, operandOk_iff]

/-- The words of commands decode to them one by one. -/
theorem map_decode_map_encode (is : List Instr) : (is.map encode).map decode = is.map .ok := by
  rw [List.map_map]
  exact List.map_congr_left fun i _ => decodeEncodeRoundTrip i

/-- A line assembles to its commands where it is well-formed; what is left for each form of line is which operands that
asks for and which commands it names. -/
theorem assemblesTo_of_wellFormed {l : AsmLine} {inRange : Prop} {is : List Instr}
    (hrange : l.wellFormed = true ↔ inRange) (his : lineCommands l = is) : AssemblesTo l inRange is := by
  subst his
  constructor
  · intro h
    exact ⟨(lineCommands l).map encode, if_pos (hrange.mpr h), map_decode_map_encode _⟩
  · intro h
    exact if_neg (mt hrange.mp h)

theorem wellFormed_data2_iff (d0 d1 : Nat) : (AsmLine.data2 d0 d1).wellFormed = true ↔ d0 ≤ 255 ∧ d1 ≤ 255 := by
  simp only [AsmLine.wellFormed, Bool.and_eq_true, operandOk_iff]

theorem wellFormed_data3_iff (d0 d1 d2 : Nat) :
    (AsmLine.data3 d0 d1 d2).wellFormed = true ↔ d0 ≤ 255 ∧ d1 ≤ 255 ∧ d2 ≤ 255 := by
  simp only [AsmLine.wellFormed, Bool.and_eq_true, operandOk_iff, and_assoc]

theorem wellFormed_bytesBy_iff (n : Nat) (ns : List Nat) :
    (AsmLine.bytesBy n ns).wellFormed = true ↔ (n = 1 ∨ n = 2 ∨ n = 3) ∧ ∀ k ∈ ns, k ≤ 255 := by
  simp only [AsmLine.wellFormed, Bool.and_eq_true, Bool.or_eq_true, beq_iff_eq, all_operandOk_iff, or_assoc]

/-- `KEY` names KCLR and one KBYTE for each number (R90). -/
theorem lineCommands_key (ns : List Nat) :
    lineCommands (.key ns) = .kclr :: ns.map fun k => .kbyte (BitVec.ofNat 8 k) := by
  rw [lineCommands, keyCommands, List.map_map]
  rfl

/-- Settles O5: form by form, with `assemblesTo_of_wellFormed`. -/
theorem assembledWordsDecode : Obligations.AssembledWordsDecode := by
  have noOperand {l : AsmLine} {is : List Instr} (hl : l.wellFormed = true) :
      lineCommands l = is → AssemblesTo l True is := assemblesTo_of_wellFormed (iff_true_intro hl)
  refine ⟨⟨noOperand rfl rfl, noOperand rfl rfl, noOperand rfl rfl, noOperand rfl rfl, noOperand rfl rfl,
      noOperand rfl rfl, noOperand rfl rfl, noOperand rfl rfl⟩,
    fun b => assemblesTo_of_wellFormed (operandOk_iff b) rfl,
    fun d0 => assemblesTo_of_wellFormed (operandOk_iff d0) rfl,
    fun d0 d1 => assemblesTo_of_wellFormed (wellFormed_data2_iff d0 d1) rfl,
    fun d0 d1 d2 => assemblesTo_of_wellFormed (wellFormed_data3_iff d0 d1 d2) rfl,
    fun ns => ⟨assemblesTo_of_wellFormed (all_operandOk_iff ns) (lineCommands_key ns),
      assemblesTo_of_wellFormed (all_operandOk_iff ns) rfl,
      fun n => assemblesTo_of_wellFormed (wellFormed_bytesBy_iff n ns) rfl,
      assemblesTo_of_wellFormed (all_operandOk_iff ns) rfl,
      assemblesTo_of_wellFormed (all_operandOk_iff ns) rfl⟩⟩

/-! ### The bytes of a BYTES line (R84, R91) -/

theorem dataStream_cons {i : Instr} {is : List Instr} {bs rest : List Byte} (hi : dataBytes i = some bs)
    (his : dataStream is = some rest) : dataStream (i :: is) = some (bs ++ rest) := by
  simp only [dataStream, hi, his]

theorem dataStream_bytesCommands (s : List Byte) : dataStream (bytesCommands s) = some s := by
  induction s using bytesCommands.induct with
  | case1 a b c rest ih => exact dataStream_cons (i := .data3 a b c) rfl ih
  | case2 a b => rfl
  | case3 a => rfl
  | case4 => rfl

theorem dataStream_bytesBy2 (s : List Byte) : dataStream (bytesBy2 s) = some s := by
  induction s using bytesBy2.induct with
  | case1 a b rest ih => exact dataStream_cons (i := .data2 a b) rfl ih
  | case2 a => rfl
  | case3 => rfl

theorem dataStream_map_data1 (s : List Byte) : dataStream (s.map .data1) = some s := by
  induction s with
  | nil => rfl
  | cons a s ih => exact dataStream_cons (i := .data1 a) rfl ih

/-- Settles O6: each split carries its bytes by induction along it; the shapes are its equations. -/
theorem bytesLineCarriesItsBytes : Obligations.BytesLineCarriesItsBytes := by
  refine ⟨fun s => ⟨dataStream_bytesCommands s, ?_⟩, fun _ _ _ _ => rfl, fun _ _ => rfl, fun _ => rfl, rfl,
    fun _ => rfl, fun _ _ _ => rfl, fun _ => rfl, fun _ => rfl⟩
  rintro n (rfl | rfl | rfl)
  · exact dataStream_map_data1 s
  · exact dataStream_bytesBy2 s
  · exact dataStream_bytesCommands s

end Sys2Proof.Machine
end

section
/-! PROOFS of the family spec/40_key_validator.md: what KCLR and KBYTE do to the key buffer, and that they do nothing
else (R101, R102). -/

namespace Sys2Proof.Machine

/-! ### Commands behind the error-state filter (R252, R253) -/

theorem exec_of_clear {i : Instr} {f : State → State} (hi : effect i = unlessError f) {s : State}
    (h : s.errcode = none) : exec i s = .next (f s) := by
  rw [exec_eq, hi, unlessError_of_clear f h]

theorem exec_of_error {i : Instr} {f : State → State} (hi : effect i = unlessError f) {s : State}
    (h : s.errcode ≠ none) : exec i s = .next { s with dropped := true } := by
  rw [exec_eq, hi, unlessError_of_error f h]
  rfl

/-! ### Key loading (R22, R23, R101, R102) -/

/-- Settles O26: the filter lets the emptying of the key buffer through or drops the word. -/
theorem kclrEffect : Obligations.KclrEffect :=
  ⟨fun _ => exec_of_clear (f := clearKey) rfl, fun _ => exec_of_error rfl, decodeEncodeRoundTrip .kclr⟩

/-- A key byte touches the key buffer and its count, no other field (R102). -/
theorem appendKeyByte_frame (b : Byte) (s : State) :
    appendKeyByte b s =
      { s with keybuf := (appendKeyByte b s).keybuf, keylen := (appendKeyByte b s).keylen } := rfl

/-- The byte at each index of the key buffer after one more key byte; index KEYLEN has none from 32 on (R102). -/
theorem appendKeyByte_getElem (b : Byte) (s : State) (i : Fin 32) :
    (appendKeyByte b s).keybuf[i] = if i.val = s.keylen.toNat then b else s.keybuf[i] := by
  rw [appendKeyByte_keybuf]
  split
  case isTrue hroom =>
    rw [Fin.getElem_fin, Vector.getElem_setIfInBounds]
    exact if_congr eq_comm rfl rfl
  case isFalse hfull =>
    have hi : i.val ≠ s.keylen.toNat := by omega
    rw [if_neg hi]

/-- Settles O27: the filter lets the storing of the byte through or drops the word; the buffer is read index by index. -/
theorem kbyteEffect : Obligations.KbyteEffect := by
  refine ⟨fun b s he => ?_, fun _ _ => exec_of_error rfl, fun b => decodeEncodeRoundTrip (.kbyte b)⟩
  exact ⟨appendKeyByte b s, exec_of_clear rfl he, appendKeyByte_frame b s, bumpKeylen_toNat s.keylen,
    appendKeyByte_getElem b s⟩

end Sys2Proof.Machine
end

section
/-! PROOFS of the family spec/41_iv_codec.md: the IV fills up byte by byte, its 16th byte starts the stream, and both
directions derive the same handle from it (R120, R122, R123, R125). -/

namespace Sys2Proof.Machine

/-! ### Storing several IV bytes (R122) -/

/-- The IV register after the IV bytes `bs`, one after another; `processBytes_parsing` says that the engine's DATA
bytes do this. -/
def storeIVBytes (bs : List Byte) (s : State) : State := bs.foldl (fun u b => storeIVByte b u) s

@[simp] theorem storeIVBytes_nil (s : State) : storeIVBytes [] s = s := rfl

@[simp] theorem storeIVBytes_cons (b : Byte) (bs : List Byte) (s : State) :
    storeIVBytes (b :: bs) s = storeIVBytes bs (storeIVByte b s) := rfl

/-- IV bytes touch the IV and its count, no other field. -/
theorem storeIVBytes_frame (bs : List Byte) (s : State) :
    storeIVBytes bs s = { s with iv := (storeIVBytes bs s).iv, ivlen := (storeIVBytes bs s).ivlen } := by
  induction bs generalizing s with
  | nil => rfl
  | cons b bs ih => exact ih (storeIVByte b s)

@[simp] theorem storeIVBytes_errcode (bs : List Byte) (s : State) : (storeIVBytes bs s).errcode = s.errcode := by
  rw [storeIVBytes_frame]

/-- IVLEN counts up, without wrapping, while it is below 31. -/
theorem storeIVByte_ivlen_toNat (b : Byte) {s : State} (h : s.ivlen.toNat < 31) :
    (storeIVByte b s).ivlen.toNat = s.ivlen.toNat + 1 := by
  rw [storeIVByte_ivlen]
  bv_omega

theorem storeIVBytes_ivlen_toNat {bs : List Byte} {s : State} (h : s.ivlen.toNat + bs.length ≤ 31) :
    (storeIVBytes bs s).ivlen.toNat = s.ivlen.toNat + bs.length := by
  induction bs generalizing s with
  | nil => rfl
  | cons b bs ih =>
    rw [List.length_cons] at h
    have hb := storeIVByte_ivlen_toNat b (s := s) (by omega)
    rw [storeIVBytes_cons, ih (by omega), hb, List.length_cons]
    omega

/-- The byte at each index of the IV register after several IV bytes. -/
theorem storeIVBytes_getElem {bs : List Byte} {s : State} (h : s.ivlen.toNat + bs.length ≤ 16) (k : Fin 16) :
    (storeIVBytes bs s).iv[k] =
      if k.val < s.ivlen.toNat ∨ s.ivlen.toNat + bs.length ≤ k.val then s.iv[k]
      else bs.getD (k.val - s.ivlen.toNat) 0 := by
  induction bs generalizing s with
  | nil => rw [if_pos (by simp only [List.length_nil]; omega)]; rfl
  | cons b bs ih =>
    rw [List.length_cons] at h
    have hb := storeIVByte_ivlen_toNat b (s := s) (by omega)
    rw [storeIVBytes_cons, ih (by omega), storeIVByte_getElem, hb, List.length_cons]
    obtain hlt | heq | hgt := Nat.lt_trichotomy k.val s.ivlen.toNat
    · rw [if_pos (by omega), if_neg (by omega), if_pos (by omega)]
    · rw [if_pos (by omega), if_pos heq.symm, if_neg (by omega), heq, Nat.sub_self, List.getD_cons_zero]
    · have hsub : k.val - s.ivlen.toNat = k.val - (s.ivlen.toNat + 1) + 1 := by omega
      rw [if_neg (c := s.ivlen.toNat = k.val) (by omega), hsub, List.getD_cons_succ]
      exact if_congr (by omega) rfl rfl

/-- Sixteen IV bytes from an empty IV are the IV. -/
theorem storeIVBytes_whole (v : Block) {s : State} (h : s.ivlen = 0) : (storeIVBytes v.toList s).iv = v := by
  have hzero : s.ivlen.toNat = 0 := by rw [h]; rfl
  ext1 k hk
  have hget := storeIVBytes_getElem (bs := v.toList) (s := s) (by simp [hzero]) ⟨k, hk⟩
  simpa [hzero, hk, Nat.not_le.mpr hk] using hget

/-- DATA bytes in IV_PARSE are stored in the IV; if they bring the 16th, the stream starts after them (R122, R123). -/
theorem processBytes_parsing {bs : List Byte} {s : State} (hp : s.phase = .ivParse) (hroom : s.ivlen.toNat ≤ 15)
    (hle : s.ivlen.toNat + bs.length ≤ 16) :
    processBytes bs s =
      if s.ivlen.toNat + bs.length = 16 then startStream (storeIVBytes bs s) else storeIVBytes bs s := by
  induction bs generalizing s with
  | nil => exact (if_neg (by simp only [List.length_nil]; omega)).symm
  | cons b bs ih =>
    rw [List.length_cons] at hle ⊢
    have hb := storeIVByte_ivlen_toNat b (s := s) (by omega)
    rw [processBytes_goOn (processByte_parsing b hp), storeIVBytes_cons]
    obtain ⟨hfull, heq⟩ | ⟨hpart, heq⟩ := ingestIVByte_cases b s <;> rw [heq]
    · have hlast : s.ivlen.toNat = 15 := by bv_omega
      obtain rfl : bs = [] := List.length_eq_zero_iff.mp (by omega)
      rw [if_pos (by simp [hlast])]
      rfl
    · have hroom' : s.ivlen.toNat + 1 ≤ 15 := by bv_omega
      rw [ih (s := storeIVByte b s) hp (by omega) (by omega), hb]
      exact if_congr (by omega) rfl rfl

/-- A DATA command of an open session processes its bytes (R177–R179). -/
theorem effect_data_open {i : Instr} {bs : List Byte} (hi : dataBytes i = some bs) {s : State} (he : s.errcode = none)
    (hp : s.phase ≠ .idle) : effect i s = processBytes bs s := by
  rw [effect_data hi, unlessError_of_clear _ he, transferData_open bs hp]

/-- Settles O37: the bytes are stored and do not bring the 16th. -/
theorem dataFillsIv : Obligations.DataFillsIv := by
  intro i bs s hi he hp hle
  have heffect : effect i s = storeIVBytes bs s := by
    rw [effect_data_open hi he (by simp [hp]), processBytes_parsing hp (by omega) (by omega), if_neg (by omega)]
  exact ⟨storeIVBytes bs s, by rw [exec_eq, heffect], storeIVBytes_frame bs s,
    storeIVBytes_ivlen_toNat (by omega), storeIVBytes_getElem (by omega)⟩

/-- Settles O38: the byte is stored at index 15 and is the 16th. -/
theorem sixteenthIvByteStartsStream : Obligations.SixteenthIvByteStartsStream := by
  intro b s he hp hlen
  have hlast : s.ivlen.toNat = 15 := by rw [hlen]; rfl
  have heffect : effect (.data1 b) s = startStream (storeIVByte b s) := by
    rw [effect_data_open (bs := [b]) rfl he (by simp [hp]), processBytes_parsing hp (by omega) (by simp [hlast]),
      if_pos (by simp [hlast])]
    rfl
  have hfull : (storeIVByte b s).ivlen = 16 := by rw [storeIVByte_ivlen, hlen]; rfl
  refine ⟨startStream (storeIVByte b s), by rw [exec_eq, heffect], ?_, fun k => ?_⟩
  · rw [← hfull]
    rfl
  · rw [startStream_iv, storeIVByte_getElem, hlast]
    exact if_congr eq_comm rfl rfl

/-! ### Sequences of DATA commands (R176, R180) -/

/-- What one data byte of an open session can do: the session stays open, or the keystream is exhausted. -/
theorem processByte_open_cases (b : Byte) {s : State} (hp : s.phase ≠ .idle) :
    (∃ t, processByte b s = .goOn t ∧ t.phase ≠ .idle ∧ t.errcode = s.errcode) ∨
    processByte b s = .raised (raise .keystreamExhausted s) := by
  cases hs : s.phase with
  | idle => exact absurd hs hp
  | ivParse =>
    refine .inl ⟨_, processByte_parsing b hs, ?_⟩
    obtain ⟨-, heq⟩ | ⟨-, heq⟩ := ingestIVByte_cases b s <;> simp [heq, hs]
  | stream =>
    cases hx : s.exh with
    | false => exact .inl ⟨_, processByte_stream b hs hx, by simp [transformByte_eq, hs], by rw [transformByte_eq]⟩
    | true => exact .inr (processByte_exhausted b hs hx)

/-- Bytes that end without an error came from a state without one, and leave the session open. -/
theorem processBytes_clear {bs : List Byte} {s : State} (hp : s.phase ≠ .idle)
    (h : (processBytes bs s).errcode = none) : s.errcode = none ∧ (processBytes bs s).phase ≠ .idle := by
  induction bs generalizing s with
  | nil => exact ⟨h, hp⟩
  | cons b bs ih =>
    obtain ⟨t, hb, hpt, het⟩ | hb := processByte_open_cases b hp
    · rw [processBytes_goOn hb] at h ⊢
      exact het ▸ ih hpt h
    · rw [processBytes_raised hb] at h
      cases h

/-- Of bytes that end without an error, the first ones end without an error. -/
theorem processBytes_clear_left {xs ys : List Byte} {s : State} (hp : s.phase ≠ .idle)
    (h : (processBytes (xs ++ ys) s).errcode = none) : (processBytes xs s).errcode = none := by
  induction xs generalizing s with
  | nil => exact (processBytes_clear hp h).1
  | cons b xs ih =>
    rw [List.cons_append] at h
    obtain ⟨t, hb, hpt, -⟩ | hb := processByte_open_cases b hp
    · rw [processBytes_goOn hb] at h ⊢
      exact ih hpt h
    · rw [processBytes_raised hb] at h
      cases h

theorem dataStream_cons_inv {i : Instr} {is : List Instr} {bs : List Byte} (h : dataStream (i :: is) = some bs) :
    ∃ xs ys, dataBytes i = some xs ∧ dataStream is = some ys ∧ bs = xs ++ ys := by
  rw [dataStream] at h
  split at h
  next xs ys hi his => exact ⟨xs, ys, hi, his, (Option.some.inj h).symm⟩
  next => cases h

/-- DATA commands of an open session whose bytes raise nothing act as their bytes, in any split (R180). -/
theorem runCommands_data {cs : List Instr} {bs : List Byte} {s : State} (hcs : dataStream cs = some bs)
    (hp : s.phase ≠ .idle) (h : (processBytes bs s).errcode = none) :
    runCommands cs s = .next (processBytes bs s) := by
  induction cs generalizing bs s with
  | nil => cases hcs; rfl
  | cons i cs ih =>
    obtain ⟨xs, ys, hi, hys, rfl⟩ := dataStream_cons_inv hcs
    have hxs := processBytes_clear_left hp h
    obtain ⟨he, hp'⟩ := processBytes_clear hp hxs
    rw [processBytes_append xs ys s hxs] at h ⊢
    rw [runCommands_cons, effect_data_open hi he hp, ih hys hp' h]

/-! ### The handle of either direction (R120, R125) -/

theorem openEncrypt_of_bytes {s : State} {v : Block} (hp : s.phase = .idle) (hk : s.keylen = 32)
    (ha : nextAnswer s = .bytes v) : openEncrypt s = beginEncrypt v (takeAnswer s) := by
  have hvalid := (keyValid_iff s).mpr hk
  rw [openEncrypt, if_neg (by simp [hp]), if_neg (by simp [hvalid]), drawAndBegin_of_bytes ha]

/-- A decrypt session's first 16 data bytes, in any split, are its IV and start its stream (R122, R123). -/
theorem runCommands_wholeIV {cs : List Instr} {v : Block} {t : State} (hcs : dataStream cs = some v.toList)
    (he : t.errcode = none) (hp : t.phase = .ivParse) (hlen : t.ivlen = 0) :
    runCommands cs t = .next (startStream (storeIVBytes v.toList t)) := by
  have hzero : t.ivlen.toNat = 0 := by rw [hlen]; rfl
  have hbytes : processBytes v.toList t = startStream (storeIVBytes v.toList t) := by
    rw [processBytes_parsing hp (by omega) (by simp [hzero]), if_pos (by simp [hzero])]
  rw [← hbytes]
  exact runCommands_data hcs (by simp [hp]) (by rw [hbytes, startStream_errcode, storeIVBytes_errcode, he])

/-- Settles O46: both sessions hold the IV `v` when their streams start, and the handle is a view of the IV. -/
theorem bothDirectionsDeriveTheHandle : Obligations.BothDirectionsDeriveTheHandle := by
  intro v cs s t hcs hes hps hks ha het hpt hlen
  have henc : exec .encstart s = .next (beginEncrypt v (takeAnswer s)) := by
    rw [exec_of_clear (f := openEncrypt) rfl hes, openEncrypt_of_bytes hps hks ha]
  have hiv : (beginEncrypt v (takeAnswer s)).iv = (startStream (storeIVBytes v.toList t)).iv := by
    rw [beginEncrypt_iv, startStream_iv, storeIVBytes_whole v hlen]
  exact ⟨_, _, henc, runCommands_wholeIV hcs het hpt hlen, rfl, rfl, by rw [nonce, nonce, hiv], rfl, rfl,
    by rw [ctr0, ctr0, hiv], rfl, rfl⟩

end Sys2Proof.Machine
end

section
/-! PROOFS of the family spec/42_aes256_block.md: multiplication in GF(2^8) against the product of polynomials (R142),
the S-box (R143), the round transformations cell by cell (R144–R147), the key expansion (R148, R149) and the order of
the rounds (R150). -/

namespace Sys2Proof.Machine

/-! ### Multiplication in GF(2^8) (R142) -/

/-- Taking `m` off either summand, or off both, is taking it off the sum as often: twice is not at all. -/
theorem ite_xor_ite (b c : Bool) (p q m : Nat) :
    (if b then p ^^^ m else p) ^^^ (if c then q ^^^ m else q) = if b ^^ c then p ^^^ q ^^^ m else p ^^^ q := by
  match b, c with
  | false, false => rfl
  | false, true => exact (Nat.xor_assoc p q m).symm
  | true, false => exact Nat.xor_right_comm p m q
  | true, true => simp [Nat.xor_right_comm p m, Nat.xor_assoc]

/-- Clearing the coefficients above `x^7` is linear: which multiples of the modulus are taken off a sum is decided bit
by bit. -/
theorem polyReduce_xor (n p q : Nat) : polyReduce n (p ^^^ q) = polyReduce n p ^^^ polyReduce n q := by
  induction n generalizing p q with
  | zero => rfl
  | succ n ih =>
    simp only [polyReduce, ← ih, Nat.testBit_xor, ite_xor_ite]

theorem polyReduce_zero (n : Nat) : polyReduce n 0 = 0 := by
  induction n with
  | zero => rfl
  | succ n ih => simp [polyReduce, ih]

/-- `xtime` on each of the 256 bytes doubles, and takes off the modulus when the double has a coefficient of `x^8`. -/
theorem xtime_toNat (a : Byte) :
    (xtime a).toNat = if a.msb then (a.toNat <<< 1) ^^^ 0x11B else a.toNat <<< 1 := by
  revert a
  decide

/-- A byte moved up by `i` places reduces to what `i` uses of `xtime` make of it: when `i` is all
of the reduction's steps, its first step is one `xtime`, still moved up; when `i` is less, it has nothing to clear. -/
theorem polyReduce_shiftLeft (a : Byte) {i n : Nat} (h : i ≤ n) :
    polyReduce n (a.toNat <<< i) = (xtime^[i] a).toNat := by
  induction n generalizing a i with
  | zero =>
    obtain rfl : i = 0 := by omega
    rfl
  | succ n ih =>
    rw [polyReduce, Nat.testBit_shiftLeft]
    obtain rfl | hi : i = n + 1 ∨ i ≤ n := by omega
    · have hbit : a.toNat.testBit 7 = a.msb := rfl
      have hstep : (if a.msb then a.toNat <<< (n + 1) ^^^ 0x11B <<< n else a.toNat <<< (n + 1)) =
          (xtime a).toNat <<< n := by
        rw [xtime_toNat, Nat.add_comm n 1, Nat.shiftLeft_add]
        split
        · rw [Nat.shiftLeft_xor_distrib]
        · rfl
      simpa [hbit, hstep] using ih (xtime a) n.le_refl
    · have hbit : a.toNat.testBit (n + 8 - i) = false :=
        Nat.testBit_lt_two_pow (a.isLt.trans_le (Nat.pow_le_pow_right (by decide) (by omega)))
      simp [hbit, ih a hi]

/-- The product of the first `n + 1` bits is that of the first `n`, and the multiple that bit `n` selects. -/
theorem gmulBits_succ (a b : Byte) (n : Nat) :
    gmulBits a b (n + 1) = gmulBits a b n ^^^ (if b.getLsbD n then xtime^[n] a else 0) := by
  induction n generalizing a b with
  | zero => simp [gmulBits]
  | succ n ih =>
    rw [gmulBits, ih, gmulBits, BitVec.getLsbD_ushiftRight, Nat.add_comm 1 n, Function.iterate_succ_apply,
      BitVec.xor_assoc]

/-- The product of the first `n` bits, by linearity of the reduction: each bit adds one multiple of `a`, reduced. -/
theorem gmulBits_toNat (a b : Byte) {n : Nat} (h : n ≤ 8) :
    (gmulBits a b n).toNat = polyReduce 7 (polyProduct a.toNat b.toNat n) := by
  induction n with
  | zero => simp [gmulBits, polyProduct, polyReduce_zero]
  | succ n ih =>
    have hbit : (if b.getLsbD n then xtime^[n] a else 0).toNat =
        polyReduce 7 (if b.toNat.testBit n then a.toNat <<< n else 0) := by
      rw [BitVec.getLsbD]
      split
      · rw [polyReduce_shiftLeft a (by omega)]
      · rw [polyReduce_zero]; rfl
    rw [gmulBits_succ, BitVec.toNat_xor, ih (by omega), hbit, polyProduct, polyReduce_xor]

/-- The field's product is the product of polynomials reduced modulo 0x11B. -/
theorem gmul_toNat (a b : Byte) : (gmul a b).toNat = polyReduce 7 (polyProduct a.toNat b.toNat 8) :=
  gmulBits_toNat a b (by decide)

theorem gmul_one (a : Byte) : gmul a 0x01 = a := by
  simp [gmul, gmulBits]

theorem gmul_two (a : Byte) : gmul a 0x02 = xtime a := by
  simp [gmul, gmulBits]

theorem gmul_three (a : Byte) : gmul a 0x03 = times3 a := by
  simp [gmul, gmulBits, times3, BitVec.xor_comm]

/-- Settles O54: the product by its bits, linearity of the reduction, and the products by 1, 2 and 3 bit by bit. -/
theorem fieldMultiples : Obligations.FieldMultiples := by
  refine ⟨gmul_toNat, fun a => ⟨?_, (gmul_two a).symm, (gmul_three a).symm, rfl, gmul_one a⟩⟩
  rw [xtime_toNat, BitVec.msb_eq_decide, Nat.shiftLeft_eq]
  by_cases h : a.toNat < 128 <;> simp [h, Nat.mul_comm]

/-! ### The S-box (R143) -/

/-- R143's check of all 256 inputs: the table holds the formula's value, and `a^254` is the inverse that the formula
takes. The two stand together because they evaluate the same `gfInverse a`. -/
theorem sbox_eq_sboxFormula_and_gmul_gfInverse :
    ∀ a : Byte, sbox a = sboxFormula a ∧ (a ≠ 0 → gmul a (gfInverse a) = 1) := by
  decide +kernel

/-- Settles O55, by evaluation at all 256 bytes, as R143 says it; the formula is the statement's by definition. -/
theorem sboxTableIsTheFormula : Obligations.SboxTableIsTheFormula :=
  ⟨fun a => (sbox_eq_sboxFormula_and_gmul_gfInverse a).1, by decide,
    fun a => (sbox_eq_sboxFormula_and_gmul_gfInverse a).2⟩

/-! ### The round transformations (R144–R147) -/

@[simp] theorem subBytes_cell (s : AesState) (r c : Fin 4) : (subBytes s).cell r c = sbox (s.cell r c) :=
  aesState_cell _ r c

@[simp] theorem shiftRows_cell (s : AesState) (r c : Fin 4) : (shiftRows s).cell r c = s.cell r (c + r) :=
  aesState_cell _ r c

@[simp] theorem addRoundKey_cell (w : List KeyWord) (rd : Nat) (s : AesState) (r c : Fin 4) :
    (addRoundKey w rd s).cell r c = s.cell r c ^^^ (w.getD (4 * rd + c.val) (Bytes.zero 4))[r] :=
  aesState_cell _ r c

/-- The rows of MixColumns are one row turned: each combines the cell with the three below it, modulo 4 (R146). -/
@[simp] theorem mixColumns_cell (s : AesState) (r c : Fin 4) :
    (mixColumns s).cell r c =
      xtime (s.cell r c) ^^^ times3 (s.cell (r + 1) c) ^^^ s.cell (r + 2) c ^^^ s.cell (r + 3) c := by
  rw [mixColumns, aesState_cell]
  match r with
  | 0 => rfl
  | 1 | 2 | 3 => simp only [mixRow, Fin.reduceAdd]; ac_rfl

/-- Settles O56: each transformation is given cell by cell, and `xtime` and `times3` are the multiples by 2 and 3. -/
theorem roundTransformations : Obligations.RoundTransformations := by
  intro s w rd r c
  have hmix : (mixColumns s).cell r c = gmul (s.cell r c) 0x02 ^^^ gmul (s.cell (r + 1) c) 0x03 ^^^
      s.cell (r + 2) c ^^^ s.cell (r + 3) c := by rw [mixColumns_cell, gmul_two, gmul_three]
  exact ⟨rfl, subBytes_cell s r c, shiftRows_cell s r c, hmix, addRoundKey_cell w rd s r c⟩

/-! ### The words of the key expansion (R148) -/

@[simp] theorem subWord_getElem (t : KeyWord) (r : Fin 4) : (subWord t)[r] = sbox t[r] := by
  simp [subWord]

@[simp] theorem xorWord_getElem (t u : KeyWord) (r : Fin 4) : (xorWord t u)[r] = t[r] ^^^ u[r] := by
  simp [xorWord]

theorem roundConstant_eq_xtime {j : Nat} (h : 2 ≤ j) : roundConstant j = xtime (roundConstant (j - 1)) := by
  obtain ⟨i, rfl⟩ := Nat.exists_eq_add_of_le' h
  rfl

/-- Settles O58: the words byte by byte, and the constants by the recursion of `roundConstant`. -/
theorem keyWordHelpers : Obligations.KeyWordHelpers :=
  ⟨fun t u => ⟨rfl, fun r => ⟨subWord_getElem t r, xorWord_getElem t u r⟩⟩, fun _ => rfl, rfl,
    fun _ => roundConstant_eq_xtime, by decide⟩

/-! ### The key expansion (R149) -/

@[simp] theorem expandFrom_length (i n : Nat) (ws : List KeyWord) : (expandFrom i n ws).length = ws.length + n := by
  induction n generalizing i ws with
  | zero => rfl
  | succ n ih => rw [expandFrom, ih, List.length_cons]; omega

/-- The steps of the expansion may be taken in two runs. -/
theorem expandFrom_add (i m n : Nat) (ws : List KeyWord) :
    expandFrom i (m + n) ws = expandFrom (i + m) n (expandFrom i m ws) := by
  induction m generalizing i ws with
  | zero => simp [expandFrom]
  | succ m ih => rw [Nat.succ_add_eq_add_succ, Nat.add_succ, expandFrom, ih, expandFrom]; congr 1; omega

/-- A word once made stays where it is. -/
theorem expandFrom_reverse_getD {ws : List KeyWord} {j : Nat} (h : j < ws.length) (i n : Nat) (d : KeyWord) :
    (expandFrom i n ws).reverse.getD j d = ws.reverse.getD j d := by
  induction n generalizing i ws with
  | zero => rfl
  | succ n ih =>
    rw [expandFrom, ih (by simp; omega), List.reverse_cons, List.getD_append _ _ _ _ (by simpa using h)]

/-- The words `w[0 .. 8 + m)`, the newest first, from which the expansion makes `w[8 + m]` (R149). -/
def wordsBefore (k : Key) (m : Nat) : List KeyWord := expandFrom 8 m (List.ofFn (keyWord k)).reverse

@[simp] theorem wordsBefore_length (k : Key) (m : Nat) : (wordsBefore k m).length = 8 + m := by
  simp [wordsBefore]

/-- The expansion goes on from any of its stages. -/
theorem keyExpansion_eq_of_add {m n : Nat} (h : m + n = 52) (k : Key) :
    keyExpansion k = (expandFrom (8 + m) n (wordsBefore k m)).reverse := by
  rw [keyExpansion, ← h, expandFrom_add, wordsBefore]

theorem keyExpansion_length (k : Key) : (keyExpansion k).length = 60 := by
  simp [keyExpansion]

/-- Word `w[8 + m - 1 - j]` is the one that stands at place `j` when `w[8 + m]` is made. -/
theorem wordsBefore_getD {m j i : Nat} (hm : m ≤ 52) (h : i + j + 1 = 8 + m) (k : Key) (d : KeyWord) :
    (wordsBefore k m).getD j d = (keyExpansion k).getD i d := by
  have hlen := wordsBefore_length k m
  rw [keyExpansion_eq_of_add (Nat.add_sub_of_le hm), expandFrom_reverse_getD (by omega)]
  rw [List.getD_eq_getElem?_getD, List.getD_eq_getElem?_getD, List.getElem?_reverse (by omega)]
  congr 2
  omega

/-- The first words are the key's. -/
theorem keyExpansion_getD_of_lt (k : Key) (i : Fin 8) (d : KeyWord) :
    (keyExpansion k).getD i.val d = keyWord k i := by
  rw [keyExpansion, expandFrom_reverse_getD (by simp), List.reverse_reverse, List.getD_eq_getElem?_getD,
    List.getElem?_ofFn]
  simp

theorem keyExpansion_getD_add (k : Key) {m : Nat} (h : m < 52) (d : KeyWord) :
    (keyExpansion k).getD (8 + m) d = nextKeyWord (8 + m) (wordsBefore k m) := by
  rw [keyExpansion_eq_of_add (m := m) (n := 51 - m + 1) (by omega), expandFrom, expandFrom_reverse_getD (by simp)]
  simp

/-- Settles O59: word `w[8 + m]` is made from the words before it, and those are words of the whole expansion. -/
theorem keyExpansionRecurrence : Obligations.KeyExpansionRecurrence := by
  refine fun k => ⟨keyExpansion_length k, fun i r => ?_, ?_⟩
  · rw [keyExpansion_getD_of_lt]
    simp [keyWord]
  · rintro i hi hlt t rfl
    obtain ⟨m, rfl⟩ := Nat.exists_eq_add_of_le hi
    have hm : m < 52 := by omega
    rw [keyExpansion_getD_add k hm, nextKeyWord, wordsBefore_getD hm.le (i := 8 + m - 8) (by omega),
      wordsBefore_getD hm.le (i := 8 + m - 1) (by omega)]
    rfl

/-! ### The rounds (R141, R150) -/

/-- The state after round key 0 and the full rounds `1 .. rd` (R150). -/
def stateAfterRound (k : Key) (b : Block) (rd : Nat) : AesState :=
  fullRounds (keyExpansion k) 1 rd (addRoundKey (keyExpansion k) 0 b)

theorem stateAfterRound_zero_cell (k : Key) (b : Block) (r c : Fin 4) :
    (stateAfterRound k b 0).cell r c =
      b[r.val + 4 * c.val] ^^^ ((keyExpansion k).getD c.val (Bytes.zero 4))[r] := by
  rw [stateAfterRound, fullRounds, addRoundKey_cell, Nat.mul_zero, Nat.zero_add]
  rfl

theorem stateAfterRound_succ (k : Key) (b : Block) (rd : Nat) :
    stateAfterRound k b (rd + 1) =
      addRoundKey (keyExpansion k) (rd + 1) (mixColumns (shiftRows (subBytes (stateAfterRound k b rd)))) := by
  rw [stateAfterRound, fullRounds_succ, Nat.add_comm 1 rd]
  rfl

/-- Settles O57: the states are those after each round, and the last round is read off cell by cell. -/
theorem cipherRounds : Obligations.CipherRounds := by
  refine fun k b => ⟨stateAfterRound k b, stateAfterRound_zero_cell k b, fun rd hrd _ => ?_, fun r c => ?_⟩
  · obtain ⟨n, rfl⟩ := Nat.exists_eq_add_of_le' hrd
    exact stateAfterRound_succ k b n
  · exact addRoundKey_cell (keyExpansion k) 14 (shiftRows (subBytes (stateAfterRound k b 13))) r c

end Sys2Proof.Machine
end

section
/-! PROOFS of the family spec/43_ctr_pipeline.md, first part: what a DATA command does byte by byte (R173–R179), that
the split of a byte string into commands does not matter (R180), and the closed form of a stream (R181–R185). -/

namespace Sys2Proof.Machine

/-! ### One DATA command (R175–R179, R254) -/

/-- A DATA command is its bytes behind the error-state filter (R252). -/
theorem effect_data_filter {i : Instr} {bs : List Byte} (hi : dataBytes i = some bs) :
    effect i = unlessError (transferData bs) := funext (effect_data hi)

/-- Every DATA command carries a byte (R84). -/
theorem dataBytes_cons {i : Instr} {bs : List Byte} (hi : dataBytes i = some bs) : ∃ b rest, bs = b :: rest := by
  cases i with
  | data1 d0 => exact ⟨d0, [], (Option.some.inj hi).symm⟩
  | data2 d0 d1 => exact ⟨d0, [d1], (Option.some.inj hi).symm⟩
  | data3 d0 d1 d2 => exact ⟨d0, [d1, d2], (Option.some.inj hi).symm⟩
  | _ => cases hi

/-- No DATA command carries more than three (R84). -/
theorem dataBytes_length_le {i : Instr} {bs : List Byte} (hi : dataBytes i = some bs) : bs.length ≤ 3 := by
  cases i <;> cases hi <;> simp

theorem exec_data_open {i : Instr} {bs : List Byte} (hi : dataBytes i = some bs) {s : State} (he : s.errcode = none)
    (hp : s.phase ≠ .idle) : exec i s = .next (processBytes bs s) := by
  rw [exec_eq, effect_data_open hi he hp]

/-- Settles O40: the filter drops the word, or the phase check of the transfer turns it away. -/
theorem dataWithoutSession : Obligations.DataWithoutSession := by
  intro i bs s hi
  refine ⟨fun he hp => ?_, exec_of_error (effect_data_filter hi)⟩
  rw [exec_of_clear (effect_data_filter hi) he, transferData_idle bs hp]

/-- Settles O41: the first byte raises, and there is a first byte. -/
theorem exhaustedStreamRaises : Obligations.ExhaustedStreamRaises := by
  intro i bs s hi he hp hx
  obtain ⟨b, rest, rfl⟩ := dataBytes_cons hi
  rw [exec_data_open hi he (by simp [hp]), processBytes_raised (processByte_exhausted b hp hx)]

/-- In an open session, a first byte that raises nothing leaves the rest to be processed after it. -/
theorem processBytes_first_clear {b : Byte} {s t : State} (hp : s.phase ≠ .idle) (ht : processBytes [b] s = t)
    (hc : t.errcode = none) (bs : List Byte) : t.phase ≠ .idle ∧ processBytes (b :: bs) s = processBytes bs t := by
  subst ht
  exact ⟨(processBytes_clear hp hc).2, processBytes_append [b] bs s hc⟩

/-- In an open session, a first byte that raises ends the command (R254). -/
theorem processBytes_first_raised {b : Byte} {s t : State} (he : s.errcode = none) (hp : s.phase ≠ .idle)
    (ht : processBytes [b] s = t) (hc : t.errcode ≠ none) (bs : List Byte) : processBytes (b :: bs) s = t := by
  subst ht
  obtain ⟨u, hb, -, hu⟩ | hb := processByte_open_cases b hp
  · rw [processBytes_goOn hb] at hc
    exact absurd (hu.trans he) hc
  · rw [processBytes_raised hb, processBytes_raised hb]

/-- Settles O39: DATA1 is the first byte of DATA2 and DATA3. -/
theorem dataCommandGoesByteByByte : Obligations.DataCommandGoesByteByByte := by
  intro d0 d1 d2 s t he hp hrun
  have ht : processBytes [d0] s = t := Host.Outcome.next.inj ((exec_data_open rfl he hp).symm.trans hrun)
  have h2 : exec (.data2 d0 d1) s = .next (processBytes [d0, d1] s) := exec_data_open rfl he hp
  have h3 : exec (.data3 d0 d1 d2) s = .next (processBytes [d0, d1, d2] s) := exec_data_open rfl he hp
  constructor
  · intro hc
    obtain ⟨hpt, hrest⟩ := processBytes_first_clear hp ht hc [d1]
    obtain ⟨-, hrest'⟩ := processBytes_first_clear hp ht hc [d1, d2]
    exact ⟨by rw [h2, hrest, exec_data_open rfl hc hpt], by rw [h3, hrest', exec_data_open rfl hc hpt]⟩
  · intro hc
    rw [h2, h3, processBytes_first_raised he hp ht hc, processBytes_first_raised he hp ht hc]
    exact ⟨rfl, rfl⟩

/-! ### Splits of a byte string (R180) -/

/-- DATA commands do not leave the error state, so a run of them that ends outside it began outside it (R252). -/
theorem errcode_none_of_runCommands_data {cs : List Instr} {bs : List Byte} {s t : State}
    (hcs : dataStream cs = some bs) (hrun : runCommands cs s = .next t) (ht : t.errcode = none) : s.errcode = none := by
  induction cs generalizing bs s with
  | nil => rwa [Host.Outcome.next.inj hrun]
  | cons i cs ih =>
    obtain ⟨xs, ys, hi, hys, -⟩ := dataStream_cons_inv hcs
    rw [runCommands_cons] at hrun
    have heffect := ih hys hrun
    by_contra he
    rw [effect_data_filter hi, unlessError_of_error _ he] at heffect
    exact he heffect

/-- DATA commands of an open session that end without an error have acted as their bytes, one after another. -/
theorem processBytes_of_runCommands {cs : List Instr} {bs : List Byte} {s t : State} (hcs : dataStream cs = some bs)
    (hp : s.phase ≠ .idle) (hrun : runCommands cs s = .next t) (ht : t.errcode = none) : processBytes bs s = t := by
  induction cs generalizing bs s with
  | nil =>
    cases hcs
    exact Host.Outcome.next.inj hrun
  | cons i cs ih =>
    have he := errcode_none_of_runCommands_data hcs hrun ht
    obtain ⟨xs, ys, hi, hys, rfl⟩ := dataStream_cons_inv hcs
    rw [runCommands_cons, effect_data_open hi he hp] at hrun
    have hxs := errcode_none_of_runCommands_data hys hrun ht
    rw [processBytes_append xs ys s hxs]
    exact ih hys (processBytes_clear hp hxs).2 hrun

/-- Settles O42: both splits act as the bytes they carry. -/
theorem chunkInvariance : Obligations.ChunkInvariance := by
  intro cs ds bs s t hcs hds hp hrun ht
  have hbytes := processBytes_of_runCommands hcs hp hrun ht
  rw [← hbytes]
  exact runCommands_data hds hp (by rw [hbytes, ht])

/-! ### Bytes of a live stream by position (R170–R176) -/

/-- How many blocks the stream still has, the one it stands in included: 2^64 when the counter is at its start. -/
def blocksLeft (s : State) : Nat := (ctr0 s - s.ctr - 1).toNat + 1

/-- How many bytes the stream still transforms before EXH is set; `processBytes_stream` ties it to the engine. -/
def bytesLeft (s : State) : Nat := 16 * blocksLeft s - s.offset.toNat

/-- The stream `bs.length` bytes on, every byte transformed; `processBytes_stream` says that the engine gets there. -/
def streamedBytes (bs : List Byte) (s : State) : State :=
  { s with
    out := s.out ++ bs.mapIdx fun j b => b ^^^ keystreamAhead s j,
    ctr := s.ctr + BitVec.ofNat 64 ((s.offset.toNat + bs.length) / 16),
    offset := s.offset + BitVec.ofNat 4 bs.length,
    exh := decide (bs.length = bytesLeft s) }

theorem blocksLeft_pos (s : State) : 0 < blocksLeft s := Nat.succ_pos _

theorem bytesLeft_pos (s : State) : 0 < bytesLeft s := by
  rw [bytesLeft, blocksLeft]
  omega

/-- The counter is `q` blocks on and one short of its start exactly in the last block. -/
theorem ctr_add_eq_ctr0_iff {s : State} {q : Nat} (hq : q < blocksLeft s) :
    s.ctr + BitVec.ofNat 64 q + 1 = ctr0 s ↔ q + 1 = blocksLeft s := by
  rw [blocksLeft] at *
  generalize ctr0 s = c at *
  bv_omega

theorem ctr_succ_eq_ctr0_iff (s : State) : s.ctr + 1 = ctr0 s ↔ blocksLeft s = 1 := by
  have h := ctr_add_eq_ctr0_iff (blocksLeft_pos s)
  rwa [BitVec.ofNat_eq_ofNat, BitVec.add_zero, eq_comm (a := 0 + 1)] at h

@[simp] theorem streamedBytes_errcode (bs : List Byte) (s : State) : (streamedBytes bs s).errcode = s.errcode := rfl

@[simp] theorem streamedBytes_out (bs : List Byte) (s : State) :
    (streamedBytes bs s).out = s.out ++ bs.mapIdx fun j b => b ^^^ keystreamAhead s j := rfl

@[simp] theorem streamedBytes_ctr (bs : List Byte) (s : State) :
    (streamedBytes bs s).ctr = s.ctr + BitVec.ofNat 64 ((s.offset.toNat + bs.length) / 16) := rfl

@[simp] theorem streamedBytes_ctr0 (bs : List Byte) (s : State) : ctr0 (streamedBytes bs s) = ctr0 s := rfl

@[simp] theorem streamedBytes_exh (bs : List Byte) (s : State) :
    (streamedBytes bs s).exh = decide (bs.length = bytesLeft s) := rfl

theorem streamedBytes_exh_of_lt {bs : List Byte} {s : State} (h : bs.length < bytesLeft s) :
    (streamedBytes bs s).exh = false := decide_eq_false (Nat.ne_of_lt h)

@[simp] theorem streamedBytes_offset (bs : List Byte) (s : State) :
    (streamedBytes bs s).offset = s.offset + BitVec.ofNat 4 bs.length := rfl

theorem streamedBytes_offset_toNat (bs : List Byte) (s : State) :
    (streamedBytes bs s).offset.toNat = (s.offset.toNat + bs.length) % 16 := by
  simp [streamedBytes]

theorem streamedBytes_nil {s : State} (hx : s.exh = false) : streamedBytes [] s = s := by
  have hpos := bytesLeft_pos s
  have hblock : (s.offset.toNat + ([] : List Byte).length) / 16 = 0 := by simp only [List.length_nil]; omega
  have hleft : decide (([] : List Byte).length = bytesLeft s) = s.exh := by rw [hx]; simp; omega
  rw [streamedBytes, hblock, hleft]
  simp

/-- The keystream byte after some bytes is the one as many positions ahead (R172). -/
theorem keystreamByte_streamedBytes (bs : List Byte) (s : State) :
    keystreamByte (streamedBytes bs s) = keystreamAhead s bs.length := by
  simp only [keystreamByte, streamedBytes_offset_toNat]
  rfl

/-- A block is full when the byte to come stands at its last position (R174). -/
theorem streamedBytes_offset_eq_iff (bs : List Byte) (s : State) :
    (streamedBytes bs s).offset = 15 ↔ (s.offset.toNat + bs.length) % 16 = 15 := by
  rw [← streamedBytes_offset_toNat]
  exact BitVec.toNat_inj.symm

/-- The byte to come is the last one exactly if it fills the block in which the counter is one short of its start. -/
theorem streamedBytes_last_iff {bs : List Byte} {s : State} (h : bs.length < bytesLeft s) :
    ((streamedBytes bs s).offset = 15 ∧ (streamedBytes bs s).ctr + 1 = ctr0 s) ↔ bs.length + 1 = bytesLeft s := by
  have hoff := s.offset.isLt
  rw [bytesLeft] at *
  rw [streamedBytes_offset_eq_iff, streamedBytes_ctr, ctr_add_eq_ctr0_iff (by omega)]
  omega

theorem streamedBytes_append_singleton_offset (bs : List Byte) (b : Byte) (s : State) :
    (streamedBytes (bs ++ [b]) s).offset = (streamedBytes bs s).offset + 1 := by
  simp only [streamedBytes_offset, List.length_append, List.length_singleton, BitVec.ofNat_add, BitVec.add_assoc]
  rfl

/-- The counter moves on with the byte that fills a block (R174). -/
theorem streamedBytes_append_singleton_ctr (bs : List Byte) (b : Byte) (s : State) :
    (streamedBytes (bs ++ [b]) s).ctr =
      if (streamedBytes bs s).offset = 15 then (streamedBytes bs s).ctr + 1 else (streamedBytes bs s).ctr := by
  simp only [streamedBytes_ctr, streamedBytes_offset_eq_iff, List.length_append, List.length_singleton]
  split
  case isTrue hfull =>
    have hq : (s.offset.toNat + (bs.length + 1)) / 16 = (s.offset.toNat + bs.length) / 16 + 1 := by omega
    rw [hq, BitVec.ofNat_add, ← BitVec.add_assoc]
    rfl
  case isFalse hpart =>
    have hq : (s.offset.toNat + (bs.length + 1)) / 16 = (s.offset.toNat + bs.length) / 16 := by omega
    rw [hq]

/-- EXH rises with the last byte of the stream, not before (R175). -/
theorem streamedBytes_append_singleton_exh {bs : List Byte} (b : Byte) {s : State} (h : bs.length < bytesLeft s) :
    (streamedBytes (bs ++ [b]) s).exh =
      if (streamedBytes bs s).offset = 15 ∧ (streamedBytes bs s).ctr + 1 = ctr0 s then true
      else (streamedBytes bs s).exh := by
  rw [if_congr (streamedBytes_last_iff h) rfl (streamedBytes_exh_of_lt h), streamedBytes_exh, List.length_append,
    List.length_singleton]
  simp

/-- One more byte of a stream that is not exhausted. -/
theorem transformByte_streamedBytes (b : Byte) {bs : List Byte} {s : State} (h : bs.length < bytesLeft s) :
    transformByte b (streamedBytes bs s) = streamedBytes (bs ++ [b]) s := by
  have hout : (streamedBytes bs s).out ++ [b ^^^ keystreamByte (streamedBytes bs s)] =
      (streamedBytes (bs ++ [b]) s).out := by
    simp only [streamedBytes_out, keystreamByte_streamedBytes, List.mapIdx_concat, List.append_assoc]
  rw [transformByte_eq, hout, ← streamedBytes_append_singleton_offset bs b, ← streamedBytes_append_singleton_ctr bs b,
    streamedBytes_ctr0, ← streamedBytes_append_singleton_exh b h]
  rfl

/-- The bytes of an open stream that meet no exhaustion, by position. -/
theorem processBytes_stream {bs : List Byte} {s : State} (hp : s.phase = .stream) (hx : s.exh = false)
    (he : s.errcode = none) (hle : bs.length ≤ bytesLeft s) : processBytes bs s = streamedBytes bs s := by
  induction bs using List.reverseRecOn with
  | nil => exact (streamedBytes_nil hx).symm
  | append_singleton bs b ih =>
    rw [List.length_append, List.length_singleton] at hle
    have hbs := ih (by omega)
    rw [processBytes_append bs [b] s (by rw [hbs, streamedBytes_errcode, he]), hbs,
      
      processBytes_goOn (processByte_stream b (s := streamedBytes bs s) hp (streamedBytes_exh_of_lt (by omega))),
      transformByte_streamedBytes b (by omega)]
    rfl

/-- A command that ends in the block it begins in, or begins before the last block, meets no exhaustion. -/
theorem length_le_bytesLeft {bs : List Byte} {s : State} (hle : bs.length ≤ 3)
    (h : s.offset.toNat + bs.length ≤ 16 ∨ s.ctr + 1 ≠ ctr0 s) : bs.length ≤ bytesLeft s := by
  have hoff := s.offset.isLt
  have hpos := blocksLeft_pos s
  rw [ne_eq, ctr_succ_eq_ctr0_iff] at h
  rw [bytesLeft]
  omega

/-- So short a command uses the stream up exactly if it fills the last block. -/
theorem length_eq_bytesLeft_iff {bs : List Byte} {s : State} (hle : bs.length ≤ 3)
    (h : bs.length ≤ bytesLeft s) :
    bs.length = bytesLeft s ↔ 16 ≤ s.offset.toNat + bs.length ∧ s.ctr + 1 = ctr0 s := by
  have hoff := s.offset.isLt
  have hpos := blocksLeft_pos s
  rw [ctr_succ_eq_ctr0_iff]
  rw [bytesLeft] at *
  omega

/-- Settles O36: a DATA command in STREAM that meets no exhaustion is its bytes by position. -/
theorem dataInStream : Obligations.DataInStream := by
  intro i bs s hi he hp hx h
  have hshort := dataBytes_length_le hi
  have hle := length_le_bytesLeft hshort h
  rw [exec_data_open hi he (by simp [hp]), processBytes_stream hp hx he hle, streamedBytes,
    decide_eq_decide.mpr (length_eq_bytesLeft_iff hshort hle)]

/-! ### A stream from its start (R181–R185) -/

/-- A session at the start of its stream, outside the error state (R123). -/
structure AtStreamStart (s : State) : Prop where
  errcode : s.errcode = none
  phase : s.phase = .stream
  ctr : s.ctr = ctr0 s
  offset : s.offset = 0
  exh : s.exh = false

theorem AtStreamStart.bytesLeft_eq {s : State} (h : AtStreamStart s) : bytesLeft s = 2 ^ 68 := by
  have hblocks : blocksLeft s = 2 ^ 64 := by
    rw [blocksLeft, h.ctr, BitVec.sub_self]
    rfl
  rw [bytesLeft, hblocks, h.offset]
  rfl

/-- The keystream ahead of the start is the keystream of the key and the IV (R181). -/
theorem AtStreamStart.keystreamAhead_eq {s : State} (h : AtStreamStart s) (j : Nat) :
    keystreamAhead s j = keystreamAt s.skey s.iv j := by
  have hoff : s.offset.toNat + j = j := by rw [h.offset]; exact Nat.zero_add j
  simp only [keystreamAhead, hoff, h.ctr]
  rfl

theorem AtStreamStart.streamedBytes_eq {s : State} (h : AtStreamStart s) (bs : List Byte) :
    streamedBytes bs s = { s with
      out := s.out ++ xorStream s.skey s.iv bs,
      ctr := ctr0 s + BitVec.ofNat 64 (bs.length / 16),
      offset := BitVec.ofNat 4 bs.length,
      exh := decide (bs.length = 2 ^ 68) } := by
  simp only [streamedBytes, h.keystreamAhead_eq, h.bytesLeft_eq, h.ctr, h.offset, xorStream]
  simp

theorem AtStreamStart.runCommands_eq {s : State} (h : AtStreamStart s) {cs : List Instr} {bs : List Byte}
    (hcs : dataStream cs = some bs) (hle : bs.length ≤ 2 ^ 68) :
    runCommands cs s = .next (streamedBytes bs s) := by
  have hbytes := processBytes_stream h.phase h.exh h.errcode (h.bytesLeft_eq ▸ hle)
  rw [← hbytes]
  exact runCommands_data hcs (by simp [h.phase]) (by rw [hbytes, streamedBytes_errcode, h.errcode])

/-- What a stream has emitted, when `c` names it, is its input XORed with the keystream. -/
theorem AtStreamStart.eq_xorStream {s s' : State} (h : AtStreamStart s) {cs : List Instr} {bs c : List Byte}
    (hcs : dataStream cs = some bs) (hle : bs.length ≤ 2 ^ 68) (hrun : runCommands cs s = .next s')
    (hout : s'.out = s.out ++ c) : c = xorStream s.skey s.iv bs := by
  obtain rfl := Host.Outcome.next.inj ((h.runCommands_eq hcs hle).symm.trans hrun)
  rw [h.streamedBytes_eq] at hout
  exact (List.append_cancel_left hout).symm

/-- Settles O43: the whole run is its bytes by position, from position 0. -/
theorem streamClosedForm : Obligations.StreamClosedForm := by
  intro cs bs s hcs hle he hp hctr hoff hx
  have hs : AtStreamStart s := ⟨he, hp, hctr, hoff, hx⟩
  rw [hs.runCommands_eq hcs hle, hs.streamedBytes_eq]

@[simp] theorem xorStream_length (k : Key) (v : Block) (bs : List Byte) : (xorStream k v bs).length = bs.length :=
  List.length_mapIdx

theorem xorStream_getElem (k : Key) (v : Block) (bs : List Byte) (i : Nat) (h : i < (xorStream k v bs).length) :
    (xorStream k v bs)[i] = bs[i]'(by simpa using h) ^^^ keystreamAt k v i := List.getElem_mapIdx

/-- XORing with the keystream twice gives the bytes back (R182). -/
theorem xorStream_xorStream (k : Key) (v : Block) (bs : List Byte) : xorStream k v (xorStream k v bs) = bs := by
  refine List.ext_getElem (by simp) fun i _ _ => ?_
  rw [xorStream_getElem, xorStream_getElem, BitVec.xor_assoc, BitVec.xor_self, BitVec.xor_zero]

/-- Settles O44: both streams XOR with the keystream of the one key and IV. -/
theorem streamInvolution : Obligations.StreamInvolution := by
  intro cs ds p c s t s' hcs hds hle hes hps hcs0 hos hxs het hpt hct0 hot hxt hkey hiv hrun hout
  have hs : AtStreamStart s := ⟨hes, hps, hcs0, hos, hxs⟩
  have ht : AtStreamStart t := ⟨het, hpt, hct0, hot, hxt⟩
  have hc : c = xorStream s.skey s.iv p := hs.eq_xorStream hcs hle hrun hout
  have hlec : c.length ≤ 2 ^ 68 := by rwa [hc, xorStream_length]
  refine ⟨_, ht.runCommands_eq hds hlec, ?_⟩
  rw [ht.streamedBytes_eq, hkey, hiv, hc, xorStream_xorStream]

/-- The keystream cancels from two strings XORed with it (R185). -/
theorem zipWith_xorStream (k : Key) (v : Block) (p q : List Byte) :
    List.zipWith (· ^^^ ·) (xorStream k v p) (xorStream k v q) = List.zipWith (· ^^^ ·) p q := by
  refine List.ext_getElem (by simp) fun i _ _ => ?_
  have hcancel (a b c : Byte) : (a ^^^ c) ^^^ (b ^^^ c) = a ^^^ b := by
    rw [BitVec.xor_comm b c, BitVec.xor_assoc, ← BitVec.xor_assoc c, BitVec.xor_self, BitVec.zero_xor]
  rw [List.getElem_zipWith, List.getElem_zipWith, xorStream_getElem, xorStream_getElem, hcancel]

/-- Settles O45: both streams XOR with the keystream of the one key and IV, which cancels. -/
theorem keystreamReuse : Obligations.KeystreamReuse := by
  intro cs ds p q c d s t s' t' hcs hds hlep hleq hes hps hcs0 hos hxs het hpt hct0 hot hxt hkey hiv hrun hout hrun'
    hout'
  have hs : AtStreamStart s := ⟨hes, hps, hcs0, hos, hxs⟩
  have ht : AtStreamStart t := ⟨het, hpt, hct0, hot, hxt⟩
  rw [hs.eq_xorStream hcs hlep hrun hout, ht.eq_xorStream hds hleq hrun' hout', hkey, hiv, zipWith_xorStream]

end Sys2Proof.Machine
end

section
/-! PROOFS of the family spec/43_ctr_pipeline.md, second part: a wrong key changes the bytes emitted and nothing else
(R184, R261). -/

namespace Sys2Proof.Machine

/-! ### States that differ in secrets only -/

/-- `s` with other keys in KEYBUF and SKEY and other bytes on OUT. -/
def withKeysAndOutput (k l : Key) (o : List Byte) (s : State) : State := { s with keybuf := k, skey := l, out := o }

theorem sameButKeysAndOutput_iff {s t : State} :
    SameButKeysAndOutput s t ↔ ∃ k l o, o.length = s.out.length ∧ t = withKeysAndOutput k l o s :=
  ⟨fun ⟨h, hlen⟩ => ⟨_, _, _, hlen, h⟩, by rintro ⟨k, l, o, hlen, rfl⟩; exact ⟨rfl, hlen⟩⟩

/-- An operation that leads states that differ in the keys and the bytes on OUT at most to states that differ in these
at most. -/
def SecretBlind (f : State → State) : Prop :=
  ∀ k l o s, o.length = s.out.length → SameButKeysAndOutput (f s) (f (withKeysAndOutput k l o s))

theorem SecretBlind.sameButKeysAndOutput {f : State → State} (hf : SecretBlind f) {s t : State}
    (h : SameButKeysAndOutput s t) : SameButKeysAndOutput (f s) (f t) := by
  obtain ⟨k, l, o, ho, rfl⟩ := sameButKeysAndOutput_iff.mp h
  exact hf k l o s ho

theorem SecretBlind.comp {f g : State → State} (hf : SecretBlind f) (hg : SecretBlind g) : SecretBlind (f ∘ g) :=
  fun k l o s ho => hf.sameButKeysAndOutput (hg k l o s ho)

/-- A check that reads neither a key nor OUT takes the same branch in both states. -/
theorem secretBlind_ite {f g : State → State} (c : State → Prop) [DecidablePred c]
    (hc : ∀ k l o s, c (withKeysAndOutput k l o s) ↔ c s) (hf : SecretBlind f) (hg : SecretBlind g) :
    SecretBlind fun s => if c s then f s else g s := by
  intro k l o s ho
  show SameButKeysAndOutput (if c s then f s else g s)
    (if c (withKeysAndOutput k l o s) then f (withKeysAndOutput k l o s) else g (withKeysAndOutput k l o s))
  by_cases h : c s
  · rw [if_pos h, if_pos ((hc k l o s).mpr h)]
    exact hf k l o s ho
  · rw [if_neg h, if_neg (mt (hc k l o s).mp h)]
    exact hg k l o s ho

/-! ### Operations without a check -/

theorem secretBlind_id : SecretBlind id := fun _ _ _ _ ho => ⟨rfl, ho⟩
theorem secretBlind_dropWord : SecretBlind dropWord := fun _ _ _ _ ho => ⟨rfl, ho⟩
theorem secretBlind_acknowledge : SecretBlind acknowledge := fun _ _ _ _ ho => ⟨rfl, ho⟩
theorem secretBlind_resetState : SecretBlind resetState := fun _ _ _ _ ho => ⟨rfl, ho⟩
theorem secretBlind_clearSession : SecretBlind clearSession := fun _ _ _ _ ho => ⟨rfl, ho⟩
theorem secretBlind_raise (e : EngineError) : SecretBlind (raise e) := fun _ _ _ _ ho => ⟨rfl, ho⟩
theorem secretBlind_clearKey : SecretBlind clearKey := fun _ _ _ _ ho => ⟨rfl, ho⟩
theorem secretBlind_appendKeyByte (b : Byte) : SecretBlind (appendKeyByte b) := fun _ _ _ _ ho => ⟨rfl, ho⟩
theorem secretBlind_takeAnswer : SecretBlind takeAnswer := fun _ _ _ _ ho => ⟨rfl, ho⟩
theorem secretBlind_beginDecrypt : SecretBlind beginDecrypt := fun _ _ _ _ ho => ⟨rfl, ho⟩
theorem secretBlind_startStream : SecretBlind startStream := fun _ _ _ _ ho => ⟨rfl, ho⟩
theorem secretBlind_storeIVByte (b : Byte) : SecretBlind (storeIVByte b) := fun _ _ _ _ ho => ⟨rfl, ho⟩
theorem secretBlind_serveRead (a : BitVec 4) : SecretBlind (serveRead a) := fun _ _ _ _ ho => ⟨rfl, ho⟩
theorem secretBlind_withPending (rest : List PortEvent) : SecretBlind fun s => { s with pending := rest } :=
  fun _ _ _ _ ho => ⟨rfl, ho⟩

/-- Both states emit the same IV, so as many bytes (R201). -/
theorem secretBlind_beginEncrypt (v : Block) : SecretBlind (beginEncrypt v) :=
  fun k l o s ho => ⟨rfl, by simp [withKeysAndOutput, ho]⟩

/-! ### DATA bytes -/

/-- Each state emits one byte; the counter unit reads neither a key nor OUT (R173–R175). -/
theorem secretBlind_transformByte (b : Byte) : SecretBlind (transformByte b) := by
  intro k l o s ho
  rw [transformByte_eq, transformByte_eq]
  exact ⟨rfl, by simp [withKeysAndOutput, ho]⟩

theorem secretBlind_ingestIVByte (b : Byte) : SecretBlind (ingestIVByte b) :=
  secretBlind_ite (fun s => (storeIVByte b s).ivlen = 16) (fun _ _ _ _ => Iff.rfl)
    (secretBlind_startStream.comp (secretBlind_storeIVByte b)) (secretBlind_storeIVByte b)

theorem processByte_idle (b : Byte) {s : State} (h : s.phase = .idle) : processByte b s = .goOn s := by
  simp only [processByte, h]

/-- PHASE and EXH decide what each byte does, and both states agree on them (R176). -/
theorem secretBlind_processBytes (bs : List Byte) : SecretBlind (processBytes bs) := by
  induction bs with
  | nil => exact secretBlind_id
  | cons b bs ih =>
    intro k l o s ho
    cases hp : s.phase with
    | idle =>
      rw [processBytes_goOn (processByte_idle b hp),
        processBytes_goOn (processByte_idle b (s := withKeysAndOutput k l o s) hp)]
      exact ih k l o s ho
    | ivParse =>
      rw [processBytes_goOn (processByte_parsing b hp),
        processBytes_goOn (processByte_parsing b (s := withKeysAndOutput k l o s) hp)]
      exact ih.comp (secretBlind_ingestIVByte b) k l o s ho
    | stream =>
      cases hx : s.exh with
      | false =>
        rw [processBytes_goOn (processByte_stream b hp hx),
          processBytes_goOn (processByte_stream b (s := withKeysAndOutput k l o s) hp hx)]
        exact ih.comp (secretBlind_transformByte b) k l o s ho
      | true =>
        rw [processBytes_raised (processByte_exhausted b hp hx),
          processBytes_raised (processByte_exhausted b (s := withKeysAndOutput k l o s) hp hx)]
        exact secretBlind_raise _ k l o s ho

theorem secretBlind_transferData (bs : List Byte) : SecretBlind (transferData bs) := by
  intro k l o s ho
  by_cases hp : s.phase = .idle
  · rw [transferData_idle bs hp, transferData_idle bs (s := withKeysAndOutput k l o s) hp]
    exact secretBlind_raise _ k l o s ho
  · rw [transferData_open bs hp, transferData_open bs (s := withKeysAndOutput k l o s) hp]
    exact secretBlind_processBytes bs k l o s ho

/-! ### Commands and steps -/

theorem secretBlind_unlessError {f : State → State} (hf : SecretBlind f) : SecretBlind (unlessError f) :=
  secretBlind_ite (fun s => inError s = true) (fun _ _ _ _ => Iff.rfl) secretBlind_dropWord hf

/-- The entropy source answers both states alike (R7, R121). -/
theorem secretBlind_drawAndBegin : SecretBlind drawAndBegin := by
  intro k l o s ho
  have ha' : nextAnswer (withKeysAndOutput k l o s) = nextAnswer s := rfl
  cases ha : nextAnswer s with
  | fail =>
    rw [drawAndBegin_of_fail ha, drawAndBegin_of_fail (ha'.trans ha)]
    exact (secretBlind_raise .entropyFailure).comp secretBlind_takeAnswer k l o s ho
  | bytes v =>
    rw [drawAndBegin_of_bytes ha, drawAndBegin_of_bytes (ha'.trans ha)]
    exact (secretBlind_beginEncrypt v).comp secretBlind_takeAnswer k l o s ho

/-- The checks of a session command read PHASE and KEYLEN, not the key: a wrong key is not an error (R100, R261). -/
theorem secretBlind_ofChecks {f : State → State} (hf : SecretBlind f) :
    SecretBlind fun s => if s.phase ≠ .idle then raise .sessionActive s
      else if ¬ keyValid s then raise .invalidKeyLength s else f s :=
  secretBlind_ite (fun s => s.phase ≠ .idle) (fun _ _ _ _ => Iff.rfl) (secretBlind_raise _)
    (secretBlind_ite (fun s => ¬ keyValid s) (fun _ _ _ _ => Iff.rfl) (secretBlind_raise _) hf)

theorem secretBlind_openEncrypt : SecretBlind openEncrypt := secretBlind_ofChecks secretBlind_drawAndBegin

theorem secretBlind_openDecrypt : SecretBlind openDecrypt := secretBlind_ofChecks secretBlind_beginDecrypt

theorem secretBlind_closeSession : SecretBlind closeSession := by
  intro k l o s ho
  have hp' : (withKeysAndOutput k l o s).phase = s.phase := rfl
  cases hp : s.phase <;> simp only [closeSession, hp', hp]
  case idle => exact secretBlind_raise _ k l o s ho
  case ivParse => exact secretBlind_raise _ k l o s ho
  case stream => exact secretBlind_clearSession k l o s ho

theorem secretBlind_effect (i : Instr) : SecretBlind (effect i) := by
  cases i with
  | nop => exact secretBlind_id
  | errclr => exact secretBlind_acknowledge
  | sreset => exact secretBlind_resetState
  | kclr => exact secretBlind_unlessError secretBlind_clearKey
  | kbyte b => exact secretBlind_unlessError (secretBlind_appendKeyByte b)
  | encstart => exact secretBlind_unlessError secretBlind_openEncrypt
  | decstart => exact secretBlind_unlessError secretBlind_openDecrypt
  | endSession => exact secretBlind_unlessError secretBlind_closeSession
  | abort => exact secretBlind_unlessError secretBlind_clearSession
  | data1 d0 => exact secretBlind_unlessError (secretBlind_transferData _)
  | data2 d0 d1 => exact secretBlind_unlessError (secretBlind_transferData _)
  | data3 d0 d1 d2 => exact secretBlind_unlessError (secretBlind_transferData _)

/-- An event is one and the same secret-blind operation in every state. -/
theorem takeEvent_secretBlind (e : PortEvent) : ∃ f, SecretBlind f ∧ ∀ t, takeEvent e t = .next (f t) := by
  cases e with
  | command w =>
    cases hd : decode w with
    | ok i => exact ⟨effect i, secretBlind_effect i, fun t => by rw [takeEvent, execWord_of_decode hd, exec_eq]⟩
    | error e =>
      exact ⟨illegalWord, secretBlind_unlessError (secretBlind_raise _), fun t => execWord_of_decode_error hd t⟩
  | readRegister a => exact ⟨serveRead a, secretBlind_serveRead a, fun _ => rfl⟩
  | reset => exact ⟨resetState, secretBlind_resetState, fun _ => rfl⟩

/-- So is a step, in every state with the same pending events. -/
theorem step_secretBlind (s : State) :
    ∃ f, SecretBlind f ∧ ∀ t : State, t.pending = s.pending → step t = .next (f t) := by
  cases hp : s.pending with
  | nil => exact ⟨id, secretBlind_id, fun t ht => by simp only [step, takeNextEvent, ht, id]⟩
  | cons e rest =>
    obtain ⟨f, hf, heq⟩ := takeEvent_secretBlind e
    exact ⟨_, hf.comp (secretBlind_withPending rest), fun t ht => (step_of_pending_cons ht).trans (heq _)⟩

/-- Settles O22: both states take the one secret-blind step of their pending events. -/
theorem wrongKeyChangesOnlyBytes : Obligations.WrongKeyChangesOnlyBytes := by
  intro s t s' hst hstep
  obtain ⟨f, hf, hrun⟩ := step_secretBlind s
  obtain rfl : f s = s' := Host.Outcome.next.inj ((hrun s rfl).symm.trans hstep)
  have hpending : t.pending = s.pending := by
    obtain ⟨k, l, o, -, rfl⟩ := sameButKeysAndOutput_iff.mp hst
    rfl
  exact ⟨f t, hrun t hpending, hf.sameButKeysAndOutput hst⟩

end Sys2Proof.Machine
end

section
/-! PROOFS of the family spec/44_envelope_session.md: what ENCSTART, DECSTART, END and ABORT do, check by check
(R201–R205), and the envelope of a whole session in either direction (R206–R208). -/

namespace Sys2Proof.Machine

/-! ### Opening a session (R201, R202, R253) -/

theorem openEncrypt_of_open {s : State} (hp : s.phase ≠ .idle) : openEncrypt s = raise .sessionActive s := if_pos hp

theorem openDecrypt_of_open {s : State} (hp : s.phase ≠ .idle) : openDecrypt s = raise .sessionActive s := if_pos hp

theorem openEncrypt_of_badKey {s : State} (hp : s.phase = .idle) (hk : s.keylen ≠ 32) :
    openEncrypt s = raise .invalidKeyLength s := by
  rw [openEncrypt, if_neg (not_not.mpr hp), if_pos (mt (keyValid_iff s).mp hk)]

theorem openDecrypt_of_badKey {s : State} (hp : s.phase = .idle) (hk : s.keylen ≠ 32) :
    openDecrypt s = raise .invalidKeyLength s := by
  rw [openDecrypt, if_neg (not_not.mpr hp), if_pos (mt (keyValid_iff s).mp hk)]

theorem openEncrypt_of_fail {s : State} (hp : s.phase = .idle) (hk : s.keylen = 32) (ha : nextAnswer s = .fail) :
    openEncrypt s = raise .entropyFailure (takeAnswer s) := by
  rw [openEncrypt, if_neg (not_not.mpr hp), if_neg (not_not.mpr ((keyValid_iff s).mpr hk)), drawAndBegin_of_fail ha]

theorem openDecrypt_of_goodKey {s : State} (hp : s.phase = .idle) (hk : s.keylen = 32) :
    openDecrypt s = beginDecrypt s := by
  rw [openDecrypt, if_neg (not_not.mpr hp), if_neg (not_not.mpr ((keyValid_iff s).mpr hk))]

/-- Settles O29: the filter and the three checks let the session through, whose start is one update of the state. -/
theorem encstartOpensSession : Obligations.EncstartOpensSession := by
  intro s v he hp hk ha
  rw [exec_of_clear (f := openEncrypt) rfl he, openEncrypt_of_bytes hp hk ha]
  rfl

/-- Settles O30: the first check that fails says which error; the entropy port is asked after the other two. -/
theorem encstartErrors : Obligations.EncstartErrors := by
  intro s
  have hclear (he : s.errcode = none) : exec .encstart s = .next (openEncrypt s) := exec_of_clear rfl he
  refine ⟨fun he hp => ?_, fun he hp hk => ?_, fun he hp hk ha => ?_, exec_of_error (f := openEncrypt) rfl⟩
  · rw [hclear he, openEncrypt_of_open hp]
  · rw [hclear he, openEncrypt_of_badKey hp hk]
  · rw [hclear he, openEncrypt_of_fail hp hk ha]
    rfl

/-- Settles O31: the filter and both checks let the session through, whose start is one update of the state. -/
theorem decstartOpensSession : Obligations.DecstartOpensSession := by
  intro s he hp hk
  rw [exec_of_clear (f := openDecrypt) rfl he, openDecrypt_of_goodKey hp hk]
  rfl

/-- Settles O32: the first check that fails says which error. -/
theorem decstartErrors : Obligations.DecstartErrors := by
  intro s
  have hclear (he : s.errcode = none) : exec .decstart s = .next (openDecrypt s) := exec_of_clear rfl he
  refine ⟨fun he hp => ?_, fun he hp hk => ?_, exec_of_error (f := openDecrypt) rfl⟩
  · rw [hclear he, openDecrypt_of_open hp]
  · rw [hclear he, openDecrypt_of_badKey hp hk]

/-! ### Ending a session (R203–R205) -/

theorem closeSession_idle {s : State} (hp : s.phase = .idle) : closeSession s = raise .noSession s := by
  simp only [closeSession, hp]

theorem closeSession_parsing {s : State} (hp : s.phase = .ivParse) : closeSession s = raise .truncatedEnvelope s := by
  simp only [closeSession, hp]

theorem closeSession_stream {s : State} (hp : s.phase = .stream) : closeSession s = clearSession s := by
  simp only [closeSession, hp]

/-- Settles O33: in STREAM, END is ClearSession. -/
theorem endClosesStream : Obligations.EndClosesStream := by
  intro s he hp
  rw [exec_of_clear (f := closeSession) rfl he, closeSession_stream hp]
  rfl

/-- Settles O34: the phase says which error. -/
theorem endErrors : Obligations.EndErrors := by
  intro s
  have hclear (he : s.errcode = none) : exec .endSession s = .next (closeSession s) := exec_of_clear rfl he
  refine ⟨fun he hp => ?_, fun he hp => ?_, exec_of_error (f := closeSession) rfl⟩
  · rw [hclear he, closeSession_idle hp]
  · rw [hclear he, closeSession_parsing hp]

/-- In a reachable IDLE state nothing of a session is left to clear (R37, R205). -/
theorem clearSession_of_idle {s : State} (h : s.Inv) (hp : s.phase = .idle) : clearSession s = s := by
  obtain ⟨hskey, hiv, hivlen, hctr, hoffset, hexh, hdir⟩ := h.idle hp
  clear h
  cases s
  subst hp hskey hiv hivlen hctr hoffset hexh hdir
  rfl

/-- Settles O35: in any phase ABORT is ClearSession, behind the filter. -/
theorem abortEffect : Obligations.AbortEffect := by
  have hclear {s : State} (he : s.errcode = none) : exec .abort s = .next (clearSession s) := exec_of_clear rfl he
  refine ⟨fun s he => hclear he, fun s h he hp => ?_, fun s => exec_of_error (f := clearSession) rfl,
    decodeEncodeRoundTrip .abort⟩
  rw [hclear he, clearSession_of_idle h hp]

/-! ### A whole session: key, start, data, end (R200) -/

/-- 32 bytes loaded into an empty key buffer are the key (R22). -/
theorem loadedKey_toList (k : Key) : loadedKey k.toList = k := by
  ext1 i hi
  simp [hi]

/-- A KEY line of 32 bytes leaves a valid key (R90, R100). -/
theorem runCommands_keyLine (k : Key) {s : State} (he : s.errcode = none) :
    runCommands (keyCommands k.toList) s = .next (withKeyBuffer k 32 s) := by
  rw [keyLineLoadsTheKey k.toList s he, loadedKey_toList, Vector.length_toList]
  rfl

/-- A session runs as its four parts: the key is loaded, the session opened, its data sent, and END closes it. -/
theorem runCommands_session {k : Key} {start : Instr} {f : State → State} {cs : List Instr} {s t u : State}
    (he : s.errcode = none) (hstart : effect start = unlessError f) (hopen : f (withKeyBuffer k 32 s) = t)
    (hdata : runCommands cs t = .next u) (hu : u.errcode = none) :
    runCommands (keyCommands k.toList ++ start :: cs ++ [.endSession]) s = .next (closeSession u) := by
  have heffect : effect start (withKeyBuffer k 32 s) = t := by
    rw [hstart, unlessError_of_clear f (by rwa [withKeyBuffer_errcode]), hopen]
  have hclose : effect .endSession u = closeSession u := unlessError_of_clear closeSession hu
  rw [List.append_assoc, runCommands_append _ _ _ _ (runCommands_keyLine k he), List.cons_append, runCommands_cons,
    heffect, runCommands_append _ _ _ _ hdata, runCommands_cons, hclose]
  rfl

/-- After a live stream, END leaves what the stream emitted and nothing of the session (R203, R205). -/
theorem AtStreamStart.closeSession_streamedBytes {s : State} (h : AtStreamStart s) (bs : List Byte) :
    closeSession (streamedBytes bs s) = clearSession { s with out := s.out ++ xorStream s.skey s.iv bs } := by
  rw [closeSession_stream (s := streamedBytes bs s) h.phase, h.streamedBytes_eq]
  rfl

/-! ### The envelope emitted (R206) -/

theorem atStreamStart_beginEncrypt (v : Block) {s : State} (he : s.errcode = none) :
    AtStreamStart (beginEncrypt v s) :=
  ⟨he, rfl, rfl, rfl, rfl⟩

/-- Settles O47: the stream starts with the drawn IV already emitted, and its bytes follow by position. -/
theorem encryptSequence : Obligations.EncryptSequence := by
  intro k v cs p s hcs hle he hp ha
  have hopen : openEncrypt (withKeyBuffer k 32 s) = beginEncrypt v (takeAnswer (withKeyBuffer k 32 s)) :=
    openEncrypt_of_bytes hp rfl ha
  have hstart : AtStreamStart (beginEncrypt v (takeAnswer (withKeyBuffer k 32 s))) := atStreamStart_beginEncrypt v he
  rw [runCommands_session he rfl hopen (hstart.runCommands_eq hcs hle) hstart.errcode,
    hstart.closeSession_streamedBytes, hp]
  rfl

/-! ### The envelope received (R207) -/

theorem atStreamStart_startStream {s : State} (he : s.errcode = none) : AtStreamStart (startStream s) :=
  ⟨he, rfl, rfl, rfl, rfl⟩

/-- The bytes of an envelope are its IV, then the bytes of its stream (R122, R123). -/
theorem processBytes_envelope (v : Block) (c : List Byte) {s : State} (he : s.errcode = none)
    (hp : s.phase = .ivParse) (hlen : s.ivlen = 0) :
    processBytes (v.toList ++ c) s = processBytes c (startStream (storeIVBytes v.toList s)) := by
  have hzero : s.ivlen.toNat = 0 := by rw [hlen]; rfl
  have hiv : processBytes v.toList s = startStream (storeIVBytes v.toList s) := by
    rw [processBytes_parsing hp (by omega) (by simp [hzero]), if_pos (by simp [hzero])]
  rw [processBytes_append _ _ _ (by rw [hiv, startStream_errcode, storeIVBytes_errcode, he]), hiv]

/-- A decrypt session that receives a whole envelope, in any split, streams the bytes after the IV. -/
theorem runCommands_envelope {cs : List Instr} {v : Block} {c : List Byte} {s : State}
    (hcs : dataStream cs = some (v.toList ++ c)) (hle : c.length ≤ 2 ^ 68) (he : s.errcode = none)
    (hp : s.phase = .ivParse) (hlen : s.ivlen = 0) :
    runCommands cs s = .next (streamedBytes c (startStream (storeIVBytes v.toList s))) := by
  have hstart : AtStreamStart (startStream (storeIVBytes v.toList s)) :=
    atStreamStart_startStream (by rw [storeIVBytes_errcode, he])
  have hbytes : processBytes (v.toList ++ c) s = streamedBytes c (startStream (storeIVBytes v.toList s)) := by
    rw [processBytes_envelope v c he hp hlen,
      processBytes_stream hstart.phase hstart.exh hstart.errcode (hstart.bytesLeft_eq ▸ hle)]
  rw [← hbytes]
  exact runCommands_data hcs (by simp [hp]) (by rw [hbytes, streamedBytes_errcode, hstart.errcode])

/-- A decrypt session that receives fewer than 16 bytes still waits for its IV (R122). -/
theorem runCommands_partialIV {cs : List Instr} {e : List Byte} {s : State} (hcs : dataStream cs = some e)
    (hshort : e.length < 16) (he : s.errcode = none) (hp : s.phase = .ivParse) (hlen : s.ivlen = 0) :
    runCommands cs s = .next (storeIVBytes e s) := by
  have hzero : s.ivlen.toNat = 0 := by rw [hlen]; rfl
  have hbytes : processBytes e s = storeIVBytes e s := by
    rw [processBytes_parsing hp (by omega) (by omega), if_neg (by omega)]
  rw [← hbytes]
  exact runCommands_data hcs (by simp [hp]) (by rw [hbytes, storeIVBytes_errcode, he])

/-- Of the IV bytes a session held, none is left once it is ended by an error (R205, R251). -/
theorem raise_storeIVBytes (e : EngineError) (bs : List Byte) (s : State) :
    raise e (storeIVBytes bs s) = raise e s := by
  rw [storeIVBytes_frame]
  rfl

/-- Settles O48: 16 bytes start the stream, whose bytes follow by position; with fewer, END finds the IV incomplete. -/
theorem decryptSequence : Obligations.DecryptSequence := by
  intro k cs s he hp
  have hopen : openDecrypt (withKeyBuffer k 32 s) = beginDecrypt (withKeyBuffer k 32 s) := openDecrypt_of_goodKey hp rfl
  constructor
  · intro v c hcs hle
    have hdata := runCommands_envelope (s := beginDecrypt (withKeyBuffer k 32 s)) hcs hle he rfl rfl
    have hstart : AtStreamStart (startStream (storeIVBytes v.toList (beginDecrypt (withKeyBuffer k 32 s)))) :=
      atStreamStart_startStream ((storeIVBytes_errcode _ _).trans he)
    have hiv : (storeIVBytes v.toList (beginDecrypt (withKeyBuffer k 32 s))).iv = v := storeIVBytes_whole v rfl
    rw [runCommands_session he rfl hopen hdata hstart.errcode, hstart.closeSession_streamedBytes, startStream_iv, hiv,
      storeIVBytes_frame, hp]
    rfl
  · intro e hcs hshort
    have hdata := runCommands_partialIV (s := beginDecrypt (withKeyBuffer k 32 s)) hcs hshort he rfl rfl
    have hphase : (storeIVBytes e (beginDecrypt (withKeyBuffer k 32 s))).phase = .ivParse := by
      rw [storeIVBytes_frame]
      rfl
    rw [runCommands_session he rfl hopen hdata ((storeIVBytes_errcode _ _).trans he), closeSession_parsing hphase,
      raise_storeIVBytes, hp]
    rfl

/-- Settles O49: the envelope is the IV and the plaintext XORed with its keystream, and decrypting XORs with that
keystream again. -/
theorem envelopeRoundTrip : Obligations.EnvelopeRoundTrip := by
  intro k cs ds p e v s t s' hcs hle hds hes hps ha het hpt hrun hout
  obtain rfl := Host.Outcome.next.inj ((encryptSequence k v cs p s hcs hle hes hps ha).symm.trans hrun)
  have henv : e = v.toList ++ xorStream k v p := by simpa using hout.symm
  subst henv
  refine ⟨_, (decryptSequence k ds t het hpt).1 v _ hds (by rwa [xorStream_length]), ?_, het, hpt⟩
  rw [xorStream_xorStream]

end Sys2Proof.Machine
end

section
/-! PROOFS of the family spec/45_system_commands.md: NOP does nothing and its opcode has one word (R230), ERRCLR leaves
the error state (R231). -/

namespace Sys2Proof.Machine

/-! ### NOP (R230) -/

theorem decode_of_nopOpcode {w : Word} (h : opcodeOf w = 0x00) :
    decode w = requireReserved (formatZOk w) w .nop := by
  rw [decode, h]
  rfl

/-- Settles O24: a word of NOP's opcode with its reserved bits 0 would decode to NOP, so it would be NOP's encoding. -/
theorem nopChangesNothing : Obligations.NopChangesNothing := by
  refine ⟨exec_eq .nop, decodeEncodeRoundTrip .nop, fun w hop hne => ?_⟩
  cases hreserved : formatZOk w with
  | true =>
    have hnop : decode w = .ok .nop := decode_eq_ok_iff_hasFields.mpr ⟨hop, hreserved⟩
    exact absurd (decodedWordIsTheEncoding w .nop hnop).symm hne
  | false =>
    rw [decode_of_nopOpcode hop, hreserved, ← hop]
    rfl

/-! ### ERRCLR (R231) -/

/-- Outside the error state no word has been dropped, by clause (f), so there is nothing to clear. -/
theorem acknowledge_of_clear {s : State} (hs : s.Inv) (he : s.errcode = none) : acknowledge s = s := by
  have hd : s.dropped = false := Bool.eq_false_iff.mpr fun hdropped => hs.droppedError hdropped he
  rw [acknowledge, ← he, ← hd]

/-- Settles O25: the state answered is `acknowledge s`, and clause (d) says that the session of an error state is over. -/
theorem errclrEffect : Obligations.ErrclrEffect := by
  refine ⟨fun s => ⟨acknowledge s, exec_eq .errclr s, rfl, rfl⟩, decodeEncodeRoundTrip .errclr, ?_, ?_⟩
  · intro s hs he
    calc exec .errclr s = .next (acknowledge s) := exec_eq .errclr s
      _ = .next s := by rw [acknowledge_of_clear hs he]
  · intro s t hs he hrun
    obtain rfl : acknowledge s = t := Host.Outcome.next.inj ((exec_eq .errclr s).symm.trans hrun)
    exact hs.errorIdle he

end Sys2Proof.Machine
end

section
/-! PROOFS of the family spec/60_exceptions.md: what raising an error leaves (R251), and what the error state lets through
(R252). -/

namespace Sys2Proof.Machine

/-! ### Raising an error (R251) -/

/-- Settles O23: the code is latched first, and ClearSession then clears the session and keeps the code (R205). -/
theorem raiseLatchesAndClears : Obligations.RaiseLatchesAndClears := by
  intro e s
  calc raise e s = clearSession { s with errcode := some e } := rfl
    _ = { s with
          errcode := some e, phase := .idle, dir := .encrypt, skey := Bytes.zero 32, iv := Bytes.zero 16, ivlen := 0,
          ctr := 0, offset := 0, exh := false } := rfl

/-! ### The error state (R252) -/

/-- NOP, ERRCLR and SRESET are the only commands that do not stand behind the error-state filter (R252, R253). -/
theorem effect_filter_cases (i : Instr) :
    i = .nop ∨ i = .errclr ∨ i = .sreset ∨ ∃ f, effect i = unlessError f := by
  cases i with
  | nop => exact .inl rfl
  | errclr => exact .inr (.inl rfl)
  | sreset => exact .inr (.inr (.inl rfl))
  | _ => exact .inr (.inr (.inr ⟨_, rfl⟩))

/-- A legal word is the encoding of its command, so one that is none of the three stands behind the filter; an illegal
word does so too. -/
theorem execWord_of_error {w : Word} (hnop : w ≠ encode .nop) (herrclr : w ≠ encode .errclr)
    (hsreset : w ≠ encode .sreset) {s : State} (he : s.errcode ≠ none) :
    execWord w s = .next { s with dropped := true } := by
  cases hd : decode w with
  | error e =>
    rw [execWord_of_decode_error hd, illegalWord_of_error he]
    rfl
  | ok i =>
    have hw : w = encode i := (decodedWordIsTheEncoding w i hd).symm
    rw [execWord_of_decode hd]
    obtain rfl | rfl | rfl | ⟨f, hf⟩ := effect_filter_cases i
    · exact absurd hw hnop
    · exact absurd hw herrclr
    · exact absurd hw hsreset
    · exact exec_of_error hf he

/-- The encoding of a command, taken as the oldest event, has that command's effect. -/
theorem step_of_pending_encode (i : Instr) {s : State} {rest : List PortEvent}
    (hp : s.pending = .command (encode i) :: rest) : step s = .next (effect i { s with pending := rest }) := by
  rw [stepRunsDecodedCommand s (encode i) rest i hp (decodeEncodeRoundTrip i), exec_eq]

/-- Settles O9: the three words are encodings of the commands without the filter, every other word is dropped by it, and
a register read and a reset do not meet it. -/
theorem errorStateFilter : Obligations.ErrorStateFilter := by
  intro s he
  refine ⟨fun w rest hp => ⟨?_, ?_, ?_, fun hnop herrclr hsreset => ?_⟩,
    registerReadChangesNothing s, fun rest hp => step_of_pending_cons hp⟩
  · rintro rfl
    exact step_of_pending_encode .nop hp
  · rintro rfl
    exact step_of_pending_encode .errclr hp
  · rintro rfl
    exact step_of_pending_encode .sreset hp
  · calc step s = takeEvent (.command w) { s with pending := rest } := step_of_pending_cons hp
      _ = execWord w { s with pending := rest } := rfl
      _ = .next { s with pending := rest, dropped := true } :=
        execWord_of_error (s := { s with pending := rest }) hnop herrclr hsreset he

end Sys2Proof.Machine
end

section
/-! PROOFS of the family spec/70_reset_and_hazards.md: reset (R280–R282), the step with nothing pending, and that no step
stops (R291). -/

namespace Sys2Proof.Machine

/-! ### Reset (R280–R282) -/

/-- The registers show only elements that reset sets, so after any reset they read as they do at power-on. -/
theorem readReg_resetState (s : State) (a : BitVec 4) : readReg (resetState s) a = 0 := by
  calc readReg (resetState s) a = readReg State.reset a := rfl
    _ = 0 := readReg_reset a

/-- No reset leaves the `err` output raised (R255, R280). -/
theorem errOutput_resetState (s : State) : errOutput (resetState s) = false := by
  rw [errOutput, inError, resetState_errcode, Option.isSome_none]

/-- Power-on is a state that a reset leaves as it is (R280, R281). -/
theorem resetState_reset : resetState State.reset = State.reset := rfl

/-- Settles O11: the reset input and SRESET both answer `resetState`, which names every element of R280 in its update. -/
theorem resetClearsEveryElement : Obligations.ResetClearsEveryElement := by
  refine ⟨fun s rest hp => ?_, fun s => ?_, ?_⟩
  · calc step s = takeEvent .reset { s with pending := rest } := step_of_pending_cons hp
      _ = .next (resetState { s with pending := rest }) := rfl
      _ = exec .sreset { s with pending := rest } := (exec_eq .sreset _).symm
  · exact ⟨resetState s, exec_eq .sreset s, rfl, readReg_resetState s, errOutput_resetState s⟩
  · calc exec .sreset State.reset = .next (resetState State.reset) := exec_eq .sreset State.reset
      _ = .next State.reset := by rw [resetState_reset]

/-! ### Steps (R291) -/

/-- Settles O12: with no oldest event to take, a step takes the waiting arm. -/
theorem waitsWithNothingPending : Obligations.WaitsWithNothingPending := by
  intro s hp
  simp only [step, takeNextEvent, hp]

/-- Settles O13: whatever a step does, it answers a next state. -/
theorem stepNeverStops : Obligations.StepNeverStops := by
  intro s
  obtain ⟨-, hwait⟩ | ⟨_, _, _, -, -, hcommand⟩ | ⟨_, _, _, -, -, hillegal⟩ | ⟨_, _, -, hread⟩ | ⟨_, -, hreset⟩ :=
    step_cases s
  · exact ⟨_, hwait⟩
  · exact ⟨_, hcommand⟩
  · exact ⟨_, hillegal⟩
  · exact ⟨_, hread⟩
  · exact ⟨_, hreset⟩

end Sys2Proof.Machine
end
